-- ==== Sys2Proof/Word.lean ====
section
/-! DEFINITION. The word types of the block: command words (30_encoding.md R48) and the register widths of
10_state.md R7. -/

namespace Sys2Proof

/-- A command word `CW[63:0]`, bit 0 least significant (30_encoding.md R48, 20_memory.md R40). -/
abbrev CommandWord := BitVec 64

/-- A 32-bit register or field (10_state.md R7). -/
abbrev Word32 := BitVec 32

/-- A byte, as a byte-wide link carries it (20_memory.md R40). -/
abbrev Byte := BitVec 8

end Sys2Proof
end

