-- ==== Sys2Proof/Syntax.lean ====
section
/-! DEFINITION. The commands of PCMD-1 (30_encoding.md R50), one constructor per row of spec/opcode_table.json, with
their operands as R49 and R52 read them. -/

namespace Sys2Proof

/-- SEL of SEQ.CFG (30_encoding.md R49, 42_sequencer.md R65; the names are those of the assembler, R55). -/
inductive CfgSel where
  /-- SEL 0: CFG_LOWER. -/
  | lower
  /-- SEL 1: CFG_UPPER. -/
  | upper
  /-- SEL 2: CFG_TICKS. -/
  | ticks
  /-- SEL 3: CFG_TARGET. -/
  | target
  /-- SEL k, k in 4..7: the "unknown bound-type", rejected when it executes (R53). -/
  | unknown (k : Nat)
deriving DecidableEq, Repr

/-- A command of PCMD-1 (30_encoding.md R50). -/
inductive Instr where
  /-- NOP (44_control.md R76). -/
  | nop
  /-- ACT.TGT, angle = sext_32(IMM) (41_actuator.md R59). -/
  | actTgt (angle : Int)
  /-- ACT.ADV (41_actuator.md R60). -/
  | actAdv
  /-- SEQ.CFG; IMM stays a field, since SEL says how it is read (42_sequencer.md R65). -/
  | seqCfg (sel : CfgSel) (imm : Word32)
  /-- SEQ.RST, coupled form if C = 1 (42_sequencer.md R66). -/
  | seqRst (coupled : Bool)
  /-- SEQ.ADV, coupled form if C = 1 (42_sequencer.md R67). -/
  | seqAdv (coupled : Bool)
  /-- DSP.COL; the colour is IMM itself, read by its bit fields (43_display.md R71). -/
  | dspCol (rgb : Word32)
  /-- DSP.BLK, mhz = zext_32(IMM), not read if EN = 0 (43_display.md R72). -/
  | dspBlk (en : Bool) (mhz : Nat)
  /-- DSP.RND, value = sext_32(IMM) (43_display.md R73). -/
  | dspRnd (value : Int)
  /-- DSP.ADV, dt = zext_32(IMM), elapsed milliseconds (43_display.md R74). -/
  | dspAdv (dt : Nat)
deriving DecidableEq, Repr

end Sys2Proof
end

