-- ==== Sys2Proof/WellFormed.lean ====
section
/-! DEFINITION. Which commands an encoding exists for: each operand inside the range of its field
(30_encoding.md R49, R55: "An operand outside its field's range is an assembly error"). -/

namespace Sys2Proof

/-- The values sext_32 can give: -2^31 .. 2^31-1 (30_encoding.md R49). -/
def inSigned32 (v : Int) : Bool := decide (-2 ^ 31 ≤ v) && decide (v < 2 ^ 31)

/-- The values zext_32 can give: 0 .. 2^32-1 (30_encoding.md R49). -/
def inUnsigned32 (v : Nat) : Bool := decide (v < 2 ^ 32)

/-- SEL has three bits, and 0..3 have names of their own (30_encoding.md R49). -/
def CfgSel.wellFormed : CfgSel → Bool
  | .lower => true
  | .upper => true
  | .ticks => true
  | .target => true
  | .unknown k => decide (4 ≤ k) && decide (k < 8)

/-- Every operand lies in the range of its field (30_encoding.md R49, R55). -/
def Instr.wellFormed : Instr → Bool
  | .nop => true
  | .actTgt angle => inSigned32 angle
  | .actAdv => true
  | .seqCfg sel _ => sel.wellFormed
  | .seqRst _ => true
  | .seqAdv _ => true
  | .dspCol _ => true
  | .dspBlk _ mhz => inUnsigned32 mhz
  | .dspRnd value => inSigned32 value
  | .dspAdv dt => inUnsigned32 dt

end Sys2Proof
end

