-- ==== Sys2Proof/Decode.lean ====
section
/-! DEFINITION. Decoding and encoding of command words (30_encoding.md R48 to R54), the opcode table (R50), and the
byte order of a byte-wide link (20_memory.md R40). -/

namespace Sys2Proof

/-- Why a word is illegal: which condition of 30_encoding.md R51 it breaks first, in the order of R52. The block records
none of this (60_exceptions.md R81): the step drops the name. -/
inductive IllegalWord where
  /-- RSV is not 0. -/
  | reservedBits
  /-- OPC is one of the 246 unassigned opcodes. -/
  | unassignedOpcode
  /-- An FN bit without a meaning is not 0. -/
  | functionBits
  /-- IMM of a command without operand is not 0. -/
  | operandBits
deriving DecidableEq, Repr

/-- OPC = CW[63:56] (R48). -/
def opcField (cw : CommandWord) : BitVec 8 := cw.extractLsb' 56 8

/-- FN = CW[55:48] (R48). -/
def fnField (cw : CommandWord) : BitVec 8 := cw.extractLsb' 48 8

/-- RSV = CW[47:32] (R48). -/
def rsvField (cw : CommandWord) : BitVec 16 := cw.extractLsb' 32 16

/-- IMM = CW[31:0] (R48). -/
def immField (cw : CommandWord) : Word32 := cw.extractLsb' 0 32

/-- sext_32 (00_scope.md section 6): a 32-bit field as two's complement. -/
def sext32 (v : Word32) : Int := v.toInt

/-- zext_32 (00_scope.md section 6): a 32-bit field as an unsigned number. -/
def zext32 (v : Word32) : Nat := v.toNat

/-- SEL = FN[2:0] (R49). -/
def selOfBits (k : BitVec 3) : CfgSel :=
  if k = 0 then .lower
  else if k = 1 then .upper
  else if k = 2 then .ticks
  else if k = 3 then .target
  else .unknown k.toNat

/-- The number of a selector (R49, R55). -/
def CfgSel.bits : CfgSel → BitVec 3
  | .lower => 0
  | .upper => 1
  | .ticks => 2
  | .target => 3
  | .unknown k => BitVec.ofNat 3 k

/-- The last two conditions of R51: the meaningless FN bits are 0, and so is IMM where the command has no operand. -/
def checked (fnOk immOk : Bool) (i : Instr) : Except IllegalWord Instr :=
  if !fnOk then .error .functionBits
  else if !immOk then .error .operandBits
  else .ok i

/-- `decode` of 30_encoding.md R52, its cases in the same order. Total: every word gives a command or the name of what
makes it illegal. -/
def decode (cw : CommandWord) : Except IllegalWord Instr :=
  let opc := opcField cw
  let fn := fnField cw
  let imm := immField cw
  if rsvField cw ≠ 0 then .error .reservedBits
  else if opc = 0x00 then checked (fn == 0) (imm == 0) .nop
  else if opc = 0x10 then checked (fn == 0) true (.actTgt (sext32 imm))
  else if opc = 0x11 then checked (fn == 0) (imm == 0) .actAdv
  else if opc = 0x20 then
    checked (fn.extractLsb' 3 5 == 0) true (.seqCfg (selOfBits (fn.extractLsb' 0 3)) imm)
  else if opc = 0x21 then checked (fn.extractLsb' 1 7 == 0) (imm == 0) (.seqRst (fn.getLsbD 0))
  else if opc = 0x22 then checked (fn.extractLsb' 1 7 == 0) (imm == 0) (.seqAdv (fn.getLsbD 0))
  else if opc = 0x30 then checked (fn == 0) true (.dspCol imm)
  else if opc = 0x31 then
    checked (fn.extractLsb' 1 7 == 0) true (.dspBlk (fn.getLsbD 0) (zext32 imm))
  else if opc = 0x32 then checked (fn == 0) true (.dspRnd (sext32 imm))
  else if opc = 0x33 then checked (fn == 0) true (.dspAdv (zext32 imm))
  else .error .unassignedOpcode

/-- The instruction the decoder reads from an opcode-table word of `nbits` bits (every row has 64). A command word
arrives whole (20_memory.md R40), so no byte order is involved. -/
def decodeTableWord (nbits w : Nat) : Option Instr :=
  match decode (BitVec.ofNat 64 (w % 2 ^ nbits)) with
  | .ok i => some i
  | .error _ => none

/-- OPC of a command (R50). -/
def Instr.opc : Instr → BitVec 8
  | .nop => 0x00
  | .actTgt _ => 0x10
  | .actAdv => 0x11
  | .seqCfg _ _ => 0x20
  | .seqRst _ => 0x21
  | .seqAdv _ => 0x22
  | .dspCol _ => 0x30
  | .dspBlk _ _ => 0x31
  | .dspRnd _ => 0x32
  | .dspAdv _ => 0x33

/-- One flag in FN[0], FN[7:1] = 0 (R49). -/
def fnOfFlag (b : Bool) : BitVec 8 := BitVec.setWidth 8 (BitVec.ofBool b)

/-- FN of a command (R49). -/
def Instr.fn : Instr → BitVec 8
  | .nop => 0
  | .actTgt _ => 0
  | .actAdv => 0
  | .seqCfg sel _ => BitVec.setWidth 8 sel.bits
  | .seqRst c => fnOfFlag c
  | .seqAdv c => fnOfFlag c
  | .dspCol _ => 0
  | .dspBlk en _ => fnOfFlag en
  | .dspRnd _ => 0
  | .dspAdv _ => 0

/-- IMM of a command, modulo 2^32 (R49, R55). -/
def Instr.imm : Instr → Word32
  | .nop => 0
  | .actTgt angle => BitVec.ofInt 32 angle
  | .actAdv => 0
  | .seqCfg _ imm => imm
  | .seqRst _ => 0
  | .seqAdv _ => 0
  | .dspCol rgb => rgb
  | .dspBlk _ mhz => BitVec.ofNat 32 mhz
  | .dspRnd value => BitVec.ofInt 32 value
  | .dspAdv dt => BitVec.ofNat 32 dt

/-- The word of a command: its fields side by side, RSV = 0 (R48, R55). -/
def encode (i : Instr) : CommandWord := i.opc ++ i.fn ++ (0 : BitVec 16) ++ i.imm

/-- A row of the table of 30_encoding.md R50. -/
structure OpcodeRow where
  mnemonic : String
  pattern : CommandWord
  mask : CommandWord
deriving DecidableEq, Repr

/-- A word is a row's command iff (CW AND mask) = match (R50). -/
def OpcodeRow.covers (r : OpcodeRow) (cw : CommandWord) : Bool := cw &&& r.mask == r.pattern

/-- The table of 30_encoding.md R50. -/
def opcodeTable : List OpcodeRow :=
  [ ⟨"NOP",     0x0000000000000000, 0xFFFFFFFFFFFFFFFF⟩,
    ⟨"ACT.TGT", 0x1000000000000000, 0xFFFFFFFF00000000⟩,
    ⟨"ACT.ADV", 0x1100000000000000, 0xFFFFFFFFFFFFFFFF⟩,
    ⟨"SEQ.CFG", 0x2000000000000000, 0xFFF8FFFF00000000⟩,
    ⟨"SEQ.RST", 0x2100000000000000, 0xFFFEFFFFFFFFFFFF⟩,
    ⟨"SEQ.ADV", 0x2200000000000000, 0xFFFEFFFFFFFFFFFF⟩,
    ⟨"DSP.COL", 0x3000000000000000, 0xFFFFFFFF00000000⟩,
    ⟨"DSP.BLK", 0x3100000000000000, 0xFFFEFFFF00000000⟩,
    ⟨"DSP.RND", 0x3200000000000000, 0xFFFFFFFF00000000⟩,
    ⟨"DSP.ADV", 0x3300000000000000, 0xFFFFFFFF00000000⟩ ]

/-- The mnemonic of a command (R50). -/
def Instr.mnemonic : Instr → String
  | .nop => "NOP"
  | .actTgt _ => "ACT.TGT"
  | .actAdv => "ACT.ADV"
  | .seqCfg _ _ => "SEQ.CFG"
  | .seqRst _ => "SEQ.RST"
  | .seqAdv _ => "SEQ.ADV"
  | .dspCol _ => "DSP.COL"
  | .dspBlk _ _ => "DSP.BLK"
  | .dspRnd _ => "DSP.RND"
  | .dspAdv _ => "DSP.ADV"

/-- Byte k of a word, CW[8k+7:8k]. -/
def byteOfWord (cw : CommandWord) (k : Nat) : Byte := cw.extractLsb' (8 * k) 8

/-- The bytes of a word on a byte-wide link, CW[7:0] first, CW[63:56] last (20_memory.md R40). -/
def bytesOfWord (cw : CommandWord) : List Byte :=
  [byteOfWord cw 0, byteOfWord cw 1, byteOfWord cw 2, byteOfWord cw 3,
   byteOfWord cw 4, byteOfWord cw 5, byteOfWord cw 6, byteOfWord cw 7]

/-- The word that eight bytes of a byte-wide link carry (20_memory.md R40); any other number of bytes is a partial word
or more than one, which cannot be presented (R41). -/
def wordOfBytes : List Byte → Option CommandWord
  | [b0, b1, b2, b3, b4, b5, b6, b7] => some (b7 ++ b6 ++ b5 ++ b4 ++ b3 ++ b2 ++ b1 ++ b0)
  | _ => none

end Sys2Proof
end

