-- ==== Sys2Proof/Config.lean ====
section
/-! DEFINITION. The implementation parameters of 00_scope.md section 5. They are OPEN: the model takes them as an
argument (the field `params` of State) and no statement chooses one. Which sets are admissible (R3) is said in
Sys2Proof/Machine/Parameters.lean. -/

namespace Sys2Proof

/-- Parameter ROUND_TIE: how `round_tie` breaks an exact half (00_scope.md R4, 92_eei_decisions.md D9). -/
inductive RoundTie where
  | halfEven
  | halfAway
deriving DecidableEq, Repr

/-- One parameter set (00_scope.md section 5, table). The fields are integers without bounds, so that a set which
breaks R3 can be written down and refused. -/
structure Params where
  /-- PULSE_LOWER: pulse width for an angle of 0 or less. -/
  pulseLower : Int
  /-- PULSE_INTERVAL: pulse span from angle 0 to MAX_ANGLE. -/
  pulseInterval : Int
  /-- MAX_ANGLE: the angle that gives the top pulse. -/
  maxAngle : Int
  /-- MIN_STEP: the fixed minimum step magnitude. -/
  minStep : Int
  /-- PULSE_RESET: ACT_CMD and ACT_CUR after reset. -/
  pulseReset : Int
  /-- ROUND_TIE: the tie rule of R4. -/
  roundTie : RoundTie
  /-- PWM_FREQ_HZ: the carrier frequency of the PWM channel; no rule reads it (60_exceptions.md R90).
  DESIGN CHOICE (log entry 17): the parameter table asks only "positive"; the model takes whole hertz. -/
  pwmFreqHz : Int
deriving DecidableEq, Repr

/-- The test parameter set V0 of 95_test_vectors.md, with PWM_FREQ_HZ at 1 (V0 names none).
DESIGN CHOICE (log entry 1), unsafe: State.reset holds this set because a state must hold some set; the spec leaves every
parameter OPEN, so no statement may rest on these numbers. -/
def Params.v0 : Params where
  pulseLower := 1000
  pulseInterval := 2000
  maxAngle := 180
  minStep := 5
  pulseReset := 1000
  roundTie := .halfEven
  pwmFreqHz := 1

end Sys2Proof
end

