-- ==== Sys2Proof/Machine/State.lean ====
section
/-! DEFINITION. The block's state (10_state.md R7): its registers, its event stream, and the two fields that are the
model's own (the parameter set and what the ports will show); the reasons a step can stop; reset (R95). -/

namespace Sys2Proof.Machine

/-- STATUS (10_state.md R10). Its one field is ILL; bits 31:1 read 0 and are never written, so they are not stored
(log entry 5); the 32-bit word is `Status.word`. -/
structure Status where
  /-- Bit 0, ILL: an illegal word has been presented since reset. -/
  ill : Bool
deriving DecidableEq, Repr

/-- SEQ_FLAGS (10_state.md R22); bits 31:3 read 0 (log entry 5); the 32-bit word is `SeqFlags.word`. -/
structure SeqFlags where
  /-- Bit 0, DIR: false is +1, true is -1. -/
  dir : Bool
  /-- Bit 1, DONE: the sequence is finished. -/
  done : Bool
  /-- Bit 2, VALID: the last SEQ.RST or SEQ.ADV returned a position. -/
  valid : Bool
deriving DecidableEq, Repr

/-- DSP_BLINK (10_state.md R27); bits 31:2 read 0 (log entry 5); the 32-bit word is `Blink.word`. -/
structure Blink where
  /-- Bit 0, EN: blink mode is on. -/
  en : Bool
  /-- Bit 1, PHASE: true is on. -/
  phase : Bool
deriving DecidableEq, Repr

/-- The one event of the output stream (10_state.md R34); v is a signed 32-bit value. -/
inductive Event where
  | pwmWrite (v : Word32)
deriving DecidableEq, Repr

/-- What the block's inputs show at one step: RST, CMD_VALID and CMD[63:0] (10_state.md R31, R32). -/
structure PortSample where
  rst : Bool
  cmdValid : Bool
  cmd : CommandWord
deriving DecidableEq, Repr

/-- The state of the block, one field per register of 10_state.md R7 in the table's order. -/
structure State where
  /-- MODEL'S OWN: the implementation parameters (00_scope.md section 5); no step writes them (log entry 1). -/
  params : Params
  /-- MODEL'S OWN: what the ports will show at the coming steps, next first (log entry 2). -/
  input : List PortSample
  /-- STATUS, no. 0x00 (R10). -/
  status : Status
  /-- ACT_CMD, no. 0x01, signed (R11). -/
  actCmd : Word32
  /-- ACT_CUR, no. 0x02, signed (R12). -/
  actCur : Word32
  /-- CFG_LOWER, no. 0x08, signed (R13). -/
  cfgLower : Word32
  /-- CFG_UPPER, no. 0x09, signed (R14). -/
  cfgUpper : Word32
  /-- CFG_TICKS, no. 0x0A, unsigned (R15). -/
  cfgTicks : Word32
  /-- CFG_TARGET, no. 0x0B, unsigned (R16). -/
  cfgTarget : Word32
  /-- SEQ_L, no. 0x10, signed (R17). -/
  seqL : Word32
  /-- SEQ_U, no. 0x11, signed (R18). -/
  seqU : Word32
  /-- SEQ_T, no. 0x12, unsigned (R19). -/
  seqT : Word32
  /-- SEQ_N, no. 0x13, unsigned (R20). -/
  seqN : Word32
  /-- SEQ_ACC, no. 0x14, signed: position times SEQ_T (R21). -/
  seqAcc : BitVec 96
  /-- SEQ_FLAGS, no. 0x15 (R22). -/
  seqFlags : SeqFlags
  /-- SEQ_CYC, no. 0x16, unsigned (R23). -/
  seqCyc : Word32
  /-- SEQ_OUT, no. 0x17, signed (R24). -/
  seqOut : Word32
  /-- DSP_COLOR, no. 0x20: R, G, B in bits 23:0; bits 31:24 read 0 (R25, log entry 5). -/
  dspColor : BitVec 24
  /-- DSP_VALUE, no. 0x21, unsigned (R26). -/
  dspValue : BitVec 8
  /-- DSP_BLINK, no. 0x22 (R27). -/
  dspBlink : Blink
  /-- DSP_FREQ, no. 0x23, unsigned, in mHz (R28). -/
  dspFreq : Word32
  /-- DSP_ACC, no. 0x24, unsigned (R29). -/
  dspAcc : BitVec 20
  /-- The output event stream, oldest first (R34). -/
  events : List Event
deriving DecidableEq, Repr

/-- Faults. The block has none: "No word faults, gets stuck or hangs" (60_exceptions.md R94), so there is no constructor
and nothing raises one. -/
inductive Fault where
deriving DecidableEq, Repr

/-- Why a step has no meaning. -/
inductive Refusal where
  /-- An instruction without a meaning in this model. Safe. No arm of exec answers with it: all ten commands have
  their meaning. -/
  | notModelled (mnemonic : String)
  /-- The parameter set breaks 00_scope.md R3: "A model must refuse a parameter set that breaks a constraint, and must
  give it no behaviour". Raised by `step` and `configure`. Safe: the spec asks for it. -/
  | inadmissibleParameters
deriving DecidableEq, Repr

/-- The block right after power-on with parameter set `p`: every register at the reset value of 10_state.md R7
(70_reset_and_hazards.md R95), no event emitted, nothing presented on the ports. -/
def State.resetWith (p : Params) : State where
  params := p
  input := []
  status := { ill := false }
  actCmd := BitVec.ofInt 32 p.pulseReset
  actCur := BitVec.ofInt 32 p.pulseReset
  cfgLower := 0
  cfgUpper := 0
  cfgTicks := 1
  cfgTarget := 0
  seqL := 0
  seqU := 0
  seqT := 1
  seqN := 0
  seqAcc := 0
  seqFlags := { dir := false, done := true, valid := false }
  seqCyc := 0
  seqOut := 0
  dspColor := 0
  dspValue := 0
  dspBlink := { en := false, phase := true }
  dspFreq := 1000
  dspAcc := 0
  events := []

/-- The machine right after reset. Its parameter set is the spec's test set (DESIGN CHOICE, log entry 1); for any
other set it is `State.resetWith`. -/
def State.reset : State := State.resetWith Params.v0

end Sys2Proof.Machine
end

