-- ==== Sys2Proof/Machine/Flags.lean ====
section
/-! DEFINITION. The flag words and their fields (10_state.md R10, R22, R27, R30). -/

namespace Sys2Proof.Machine

/-- One flag at bit k of a 32-bit word. -/
def flagBit (b : Bool) (k : Nat) : Word32 := if b then 1#32 <<< k else 0

/-- STATUS as a word: ILL in bit 0, bits 31:1 zero (10_state.md R10). -/
def Status.word (f : Status) : Word32 := flagBit f.ill 0

/-- SEQ_FLAGS as a word: DIR, DONE, VALID in bits 0, 1, 2, bits 31:3 zero (10_state.md R22). -/
def SeqFlags.word (f : SeqFlags) : Word32 := flagBit f.dir 0 ||| flagBit f.done 1 ||| flagBit f.valid 2

/-- DSP_BLINK as a word: EN, PHASE in bits 0, 1, bits 31:2 zero (10_state.md R27). -/
def Blink.word (f : Blink) : Word32 := flagBit f.en 0 ||| flagBit f.phase 1

/-- SEQ_FLAGS after SEQ.RST: DIR 0, DONE 0, VALID 1 (42_sequencer.md R66). -/
def flagsAfterRst : SeqFlags := { dir := false, done := false, valid := true }

/-- SEQ_FLAGS after a SEQ.ADV that returns none: VALID 0, the rest unchanged (42_sequencer.md R67). -/
def SeqFlags.none (f : SeqFlags) : SeqFlags := { f with valid := false }

/-- SEQ_FLAGS after a SEQ.ADV that returns a position: DIR inverted at a bound, DONE set when `finish`, VALID 1
(42_sequencer.md R67). -/
def SeqFlags.advanced (f : SeqFlags) (atBound finish : Bool) : SeqFlags :=
  { dir := f.dir ^^ atBound, done := f.done || finish, valid := true }

/-- DSP_BLINK while blink is off: EN 0, PHASE 1 (43_display.md R72). -/
def blinkOff : Blink := { en := false, phase := true }

/-- DSP_BLINK switched on: EN 1, PHASE 1 on a change of mode and kept otherwise (43_display.md R72). -/
def Blink.on (f : Blink) : Blink := { en := true, phase := if f.en then f.phase else true }

/-- PHASE toggled n times: inverted when n is odd (43_display.md R74). -/
def Blink.toggled (f : Blink) (n : Nat) : Blink := { f with phase := f.phase ^^ (n % 2 == 1) }

end Sys2Proof.Machine
end

