-- ==== Sys2Proof/Machine/Parameters.lean ====
section
/-! DEFINITION. Which parameter sets are admissible (00_scope.md R3) and the constants the source settles (00_scope.md
section 5). -/

namespace Sys2Proof.Machine

/-- P_COEFF = 3/100: the numerator (00_scope.md section 5). -/
def pCoeffNum : Int := 3

/-- P_COEFF = 3/100: the denominator (00_scope.md section 5). -/
def pCoeffDen : Int := 100

/-- LED_COUNT (00_scope.md section 5). -/
def ledCount : Nat := 8

/-- RENDER_MIN (00_scope.md section 5). -/
def renderMin : Int := 0

/-- RENDER_MAX (00_scope.md section 5). -/
def renderMax : Int := 255

/-- BLINK_FREQ_DEFAULT in mHz (00_scope.md section 5). -/
def blinkFreqDefault : Nat := 1000

/-- DSP_ACC's units in one toggle interval (10_state.md R29). -/
def accPerToggle : Nat := 1000000

/-- The check of a parameter set: every constraint of the parameter table and the sum of 00_scope.md R3. -/
def admissible (p : Params) : Bool :=
  decide (0 ≤ p.pulseLower) && decide (0 ≤ p.pulseInterval) &&
  decide (1 ≤ p.maxAngle) && decide (p.maxAngle ≤ 2 ^ 31 - 1) &&
  decide (0 ≤ p.minStep) &&
  decide (p.pulseLower ≤ p.pulseReset) && decide (p.pulseReset ≤ p.pulseLower + p.pulseInterval) &&
  decide (0 < p.pwmFreqHz) &&
  decide (p.pulseLower + p.pulseInterval + p.minStep ≤ 2 ^ 31 - 1)

/-- An admissible parameter set (00_scope.md R3). -/
abbrev Admissible (p : Params) : Prop := admissible p = true

/-- The block configured with a parameter set: its state right after power-on, or a refusal of the whole set
(00_scope.md R3, 60_exceptions.md R94: "The only refusal is at configuration"). -/
def configure (p : Params) : Host.Outcome State Fault Refusal :=
  if Admissible p then .next (State.resetWith p) else .refused .inadmissibleParameters

end Sys2Proof.Machine
end

