-- ==== Sys2Proof/Machine/Operands.lean ====
section
/-! DEFINITION. The arithmetic of the rules: writes modulo the register's width (00_scope.md R6), `round_tie` (R4),
and the field readings of the operands (30_encoding.md R49). -/

namespace Sys2Proof.Machine

/-- `NAME <- v`: an integer written to a register of w bits, modulo 2^w (00_scope.md R6). -/
def store (w : Nat) (v : Int) : BitVec w := BitVec.ofInt w v

/-- The tie rule of `round_tie` at an exact half between q and q + 1 (00_scope.md R4). -/
def tieOf (tie : RoundTie) (q : Int) : Int :=
  match tie with
  | .halfEven => if q % 2 = 0 then q else q + 1
  | .halfAway => if 0 ≤ q then q + 1 else q

/-- `round_tie(a, b)` for b > 0: the integer nearest to a/b (00_scope.md R4). For b > 0, `/` rounds toward minus
infinity. What Lean gives for b ≤ 0 has no rule (log entry 6); no reachable state asks for it (10_state.md R19). -/
def roundTie (tie : RoundTie) (a b : Int) : Int :=
  let q := a / b
  let r := a - q * b
  if 2 * r < b then q
  else if b < 2 * r then q + 1
  else tieOf tie q

/-- R, G, B = IMM[23:16], IMM[15:8], IMM[7:0] as one field IMM[23:0] (30_encoding.md R49). -/
def colourField (rgb : Word32) : BitVec 24 := rgb.extractLsb' 0 24

/-- IMM[31:24], which a valid colour has at 0 (30_encoding.md R49). -/
def colourTop (rgb : Word32) : BitVec 8 := rgb.extractLsb' 24 8

end Sys2Proof.Machine
end

