-- ==== Sys2Proof/Machine/Ops.lean ====
section
/-! DEFINITION. The operations the commands share: the angle-to-pulse map and the proportional delta (41_actuator.md R57,
R58), the step of the sweep (42_sequencer.md R64), the writes they make, the illegal outcome (60_exceptions.md R81),
reset (70_reset_and_hazards.md R95) and taking the next input. -/

namespace Sys2Proof.Machine

/-- The angle-to-pulse map a2p (41_actuator.md R57). -/
def a2p (p : Params) (angle : Int) : Int :=
  if angle ≤ 0 then p.pulseLower
  else if p.maxAngle ≤ angle then p.pulseLower + p.pulseInterval
  else p.pulseLower + p.pulseInterval * angle / p.maxAngle

/-- The proportional delta pdelta(d) = round_tie(3d, 100) (41_actuator.md R58). -/
def pdelta (tie : RoundTie) (d : Int) : Int := roundTie tie (pCoeffNum * d) pCoeffDen

/-- The quantized minimum step: a delta of magnitude below MIN_STEP becomes MIN_STEP in its direction
(41_actuator.md R60). -/
def atLeastMinStep (minStep delta : Int) : Int :=
  if (delta.natAbs : Int) < minStep then delta.sign * minStep else delta

/-- `ACT_CMD <- a2p(angle)`, the one write of ACT_CMD (10_state.md R11). -/
def State.command (s : State) (angle : Int) : State := { s with actCmd := store 32 (a2p s.params angle) }

/-- The coupled form: ACT_CMD follows the angle if C = 1 (42_sequencer.md R66, R67; 00_scope.md R1). -/
def State.commandIf (s : State) (coupled : Bool) (angle : Int) : State :=
  if coupled then s.command angle else s

/-- ACT_CUR moved by delta, and the new value emitted (41_actuator.md R60, 10_state.md R34). -/
def State.movePulse (s : State) (delta : Int) : State :=
  let cur := store 32 (s.actCur.toInt + delta)
  { s with actCur := cur, events := s.events ++ [.pwmWrite cur] }

/-- STEP = 2 * (SEQ_U - SEQ_L), an exact integer (42_sequencer.md R64). -/
def State.sweepStep (s : State) : Int := 2 * (s.seqU.toInt - s.seqL.toInt)

/-- SEQ_ACC after one step in the sweep's direction, modulo 2^96 (42_sequencer.md R67, 00_scope.md R6). -/
def State.nextAcc (s : State) : BitVec 96 :=
  store 96 (if s.seqFlags.dir then s.seqAcc.toInt - s.sweepStep else s.seqAcc.toInt + s.sweepStep)

/-- The rounded position of an accumulator value: round_tie(SEQ_ACC, SEQ_T) (10_state.md R38, 42_sequencer.md R64). -/
def State.roundedAt (s : State) (acc : BitVec 96) : Int := roundTie s.params.roundTie acc.toInt (s.seqT.toNat : Int)

/-- The sequencer's position, the exact rational SEQ_ACC / SEQ_T (10_state.md R38). -/
def State.position (s : State) : Rat := (s.seqAcc.toInt : Rat) / (s.seqT.toNat : Rat)

/-- The illegal outcome: STATUS.ILL is set and nothing else changes (60_exceptions.md R81). This is the block's whole
counterpart of taking an exception: no state is saved, no mode changes and control goes nowhere (R85), and there is
no return (R86). -/
def State.takeIllegal (s : State) : State := { s with status := { ill := true } }

/-- RST: every register at its reset value; the event stream keeps what it holds and gets nothing more
(70_reset_and_hazards.md R95, log entry 4). The parameters and the coming inputs are not registers. -/
def State.applyReset (s : State) : State :=
  { State.resetWith s.params with input := s.input, events := s.events }

/-- What the inputs ask of the block at one step. -/
inductive PortAction where
  /-- RST asserted: the command port is ignored (10_state.md R32). -/
  | reset
  /-- CMD_VALID presents a word (10_state.md R31). -/
  | command (cw : CommandWord)
  /-- Neither: the block holds its state (60_exceptions.md R93). -/
  | idle
deriving DecidableEq, Repr

/-- The priority of RST over the command port (60_exceptions.md R84, first item). -/
def PortSample.action (x : PortSample) : PortAction :=
  if x.rst then .reset else if x.cmdValid then .command x.cmd else .idle

/-- The next input and the state that has taken it. With no input left the ports stay idle (log entry 2). -/
def State.fetch (s : State) : PortAction × State :=
  match s.input with
  | [] => (.idle, s)
  | x :: rest => (x.action, { s with input := rest })

/-- A sample that presents a command word. -/
def present (cw : CommandWord) : PortSample := { rst := false, cmdValid := true, cmd := cw }

end Sys2Proof.Machine
end

