-- ==== Sys2Proof/Machine/Actuator.lean ====
section
/-! DEFINITION. Actuator commands (41_actuator.md). -/

namespace Sys2Proof.Machine

/-- ACT.TGT: set the commanded pulse from an angle; every angle is accepted (41_actuator.md R59). -/
def execActTgt (angle : Int) (s : State) : Host.Outcome State Fault Refusal := .next (s.command angle)

/-- ACT.ADV: one proportional step of ACT_CUR toward ACT_CMD; a delta that rounds to zero is a no-op
(41_actuator.md R60). -/
def execActAdv (s : State) : Host.Outcome State Fault Refusal :=
  let d := s.actCmd.toInt - s.actCur.toInt
  let delta := pdelta s.params.roundTie d
  if d = 0 then .next s
  else if delta = 0 then .next s
  else .next (s.movePulse (atLeastMinStep s.params.minStep delta))

end Sys2Proof.Machine
end

