-- ==== Sys2Proof/Machine/Control.lean ====
section
/-! DEFINITION. Control commands (44_control.md). -/

namespace Sys2Proof.Machine

/-- NOP: no state change, no event (44_control.md R76). -/
def execNop (s : State) : Host.Outcome State Fault Refusal := .next s

end Sys2Proof.Machine
end

