-- ==== Sys2Proof/Machine/Display.lean ====
section
/-! DEFINITION. Display commands (43_display.md). -/

namespace Sys2Proof.Machine

/-- DSP.COL: set the colour of lit lights; a colour with IMM[31:24] other than 0 is silently rejected
(43_display.md R71). -/
def execDspCol (rgb : Word32) (s : State) : Host.Outcome State Fault Refusal :=
  if colourTop rgb ≠ 0 then .next s else .next { s with dspColor := colourField rgb }

/-- DSP.BLK: switch the blink overlay; on with frequency 0 is silently rejected, and on while already on keeps phase and
timer (43_display.md R72). -/
def execDspBlk (en : Bool) (mhz : Nat) (s : State) : Host.Outcome State Fault Refusal :=
  if !en then .next { s with dspBlink := blinkOff, dspAcc := 0 }
  else if mhz = 0 then .next s
  else
    .next { s with
      dspBlink := s.dspBlink.on
      dspAcc := if s.dspBlink.en then s.dspAcc else 0
      dspFreq := store 32 mhz }

/-- DSP.RND: latch a value to display; a value outside [0, 255] is silently rejected before the latch
(43_display.md R73). -/
def execDspRnd (value : Int) (s : State) : Host.Outcome State Fault Refusal :=
  if value < renderMin ∨ renderMax < value then .next s else .next { s with dspValue := store 8 value }

/-- DSP.ADV: advance the blink timer by dt ms; each whole toggle interval inverts the phase (43_display.md R74). -/
def execDspAdv (dt : Nat) (s : State) : Host.Outcome State Fault Refusal :=
  if !s.dspBlink.en then .next s
  else
    let t := s.dspAcc.toNat + dt * s.dspFreq.toNat
    .next { s with
      dspAcc := store 20 ((t % accPerToggle : Nat) : Int)
      dspBlink := s.dspBlink.toggled (t / accPerToggle) }

end Sys2Proof.Machine
end

