-- ==== Sys2Proof/Machine/Sequencer.lean ====
section
/-! DEFINITION. Sequencer commands (42_sequencer.md). -/

namespace Sys2Proof.Machine

/-- SEQ.CFG: write one pending configuration register; an unknown selector and a zero tick count are silently rejected
(42_sequencer.md R65). -/
def execSeqCfg (sel : CfgSel) (imm : Word32) (s : State) : Host.Outcome State Fault Refusal :=
  match sel with
  | .lower => .next { s with cfgLower := store 32 (sext32 imm) }
  | .upper => .next { s with cfgUpper := store 32 (sext32 imm) }
  | .ticks => if imm = 0 then .next s else .next { s with cfgTicks := store 32 (zext32 imm) }
  | .target => .next { s with cfgTarget := store 32 (zext32 imm) }
  | .unknown _ => .next s

/-- SEQ.RST: start a fresh sweep from the pending configuration; the coupled form commands the lower bound
(42_sequencer.md R66). -/
def execSeqRst (coupled : Bool) (s : State) : Host.Outcome State Fault Refusal :=
  let s1 : State :=
    { s with
      seqL := s.cfgLower
      seqU := s.cfgUpper
      seqT := s.cfgTicks
      seqN := s.cfgTarget
      seqAcc := store 96 (s.cfgLower.toInt * s.cfgTicks.toNat)
      seqFlags := flagsAfterRst
      seqCyc := 0
      seqOut := s.cfgLower }
  .next (s1.commandIf coupled s1.seqL.toInt)

/-- SEQ.ADV: none if done; else the next position of the sweep, its bound and count tests on the exact rounded
position; the coupled form commands the position returned (42_sequencer.md R67). -/
def execSeqAdv (coupled : Bool) (s : State) : Host.Outcome State Fault Refusal :=
  if s.seqFlags.done then .next { s with seqFlags := s.seqFlags.none }
  else
    let acc := s.nextAcc
    let r := s.roundedAt acc
    let atLower := decide (r = s.seqL.toInt)
    let atBound := decide (r = s.seqU.toInt) || atLower
    let cyc := if atLower then store 32 ((s.seqCyc.toNat : Int) + 1) else s.seqCyc
    let s1 : State :=
      { s with
        seqAcc := acc
        seqFlags := s.seqFlags.advanced atBound (atLower && decide (cyc = s.seqN))
        seqCyc := cyc
        seqOut := store 32 r }
    .next (s1.commandIf coupled s1.seqOut.toInt)

end Sys2Proof.Machine
end

