-- ==== Sys2Proof/Machine/Dispatch.lean ====
section
/-! DEFINITION. One arm per command (30_encoding.md R50). -/

namespace Sys2Proof.Machine

def exec (i : Instr) (s : State) : Host.Outcome State Fault Refusal :=
  match i with
  | .nop => Sys2Proof.Machine.execNop s
  | .actTgt angle => Sys2Proof.Machine.execActTgt angle s
  | .actAdv => Sys2Proof.Machine.execActAdv s
  | .seqCfg sel imm => Sys2Proof.Machine.execSeqCfg sel imm s
  | .seqRst coupled => Sys2Proof.Machine.execSeqRst coupled s
  | .seqAdv coupled => Sys2Proof.Machine.execSeqAdv coupled s
  | .dspCol rgb => Sys2Proof.Machine.execDspCol rgb s
  | .dspBlk en mhz => Sys2Proof.Machine.execDspBlk en mhz s
  | .dspRnd value => Sys2Proof.Machine.execDspRnd value s
  | .dspAdv dt => Sys2Proof.Machine.execDspAdv dt s

end Sys2Proof.Machine
end

