-- ==== Sys2Proof/Machine/Step.lean ====
section
/-! DEFINITION. One step of the machine (00_scope.md R2, 60_exceptions.md R84, R94): the next input of the ports, by R84's
order of outcomes. -/

namespace Sys2Proof.Machine

/-- One step: RST first, then an illegal word, then the command itself (60_exceptions.md R84). A parameter set that
breaks R3 gets no behaviour. -/
def step (s : State) : Host.Outcome State Fault Refusal :=
  if Admissible s.params then
    match s.fetch with
    | (.idle, s') => .next s'
    | (.reset, s') => .next s'.applyReset
    | (.command cw, s') =>
      match decode cw with
      | .ok i => exec i s'
      | .error _ => .next s'.takeIllegal
  else .refused .inadmissibleParameters

/-- `s` with the instruction of bits `w` presented on the command port at the next step, in place of whatever the ports
were to show then (log entry 2). -/
def State.withFetchWord (s : State) (nbits w : Nat) : State :=
  { s with input := present (BitVec.ofNat 64 (w % 2 ^ nbits)) :: s.input.drop 1 }

end Sys2Proof.Machine
end

