-- ==== Sys2Proof/Machine/Assembler.lean ====
section
/-! DEFINITION. The assembler of PCMD-1 (30_encoding.md R55) and its pseudo-instructions (R56): from a line of text to the
command words it stands for. Text is a list of characters. What R55 leaves open about text (spacing, letter case) is
log entry 9. -/

namespace Sys2Proof.Machine

/-- The pseudo-instructions of 30_encoding.md R56, and the raw word of R55. Operands are as written, in no range. -/
inductive AsmLine where
  /-- A command with its operand inside its field's range. -/
  | command (i : Instr)
  /-- `.cw <64-bit value>`: a raw word. -/
  | raw (cw : CommandWord)
  /-- `tick <ms>` -/
  | tick (ms : Nat)
  /-- `seq.bounds <L>, <U>` -/
  | seqBounds (l u : Int)
  /-- `seq.setup <L>, <U>, <T>, <N>` -/
  | seqSetup (l u : Int) (t n : Nat)
  /-- `dsp.show <rgb>, <v>` -/
  | dspShow (rgb : Nat) (v : Int)
deriving DecidableEq, Repr

/-- Why a line is an assembly error (30_encoding.md R55). -/
inductive AsmError where
  /-- The mnemonic or the form of its operands is none of R55 and R56. -/
  | syntaxError
  /-- "An operand outside its field's range is an assembly error". -/
  | outOfRange
deriving DecidableEq, Repr

/-- `seq.cfg lower, L` (30_encoding.md R55). -/
def cfgLowerOf (l : Int) : Instr := .seqCfg .lower (BitVec.ofInt 32 l)

/-- `seq.cfg upper, U` (30_encoding.md R55). -/
def cfgUpperOf (u : Int) : Instr := .seqCfg .upper (BitVec.ofInt 32 u)

/-- `seq.cfg ticks, T` (30_encoding.md R55). -/
def cfgTicksOf (t : Nat) : Instr := .seqCfg .ticks (BitVec.ofNat 32 t)

/-- `seq.cfg target, N` (30_encoding.md R55). -/
def cfgTargetOf (n : Nat) : Instr := .seqCfg .target (BitVec.ofNat 32 n)

/-- The expansion of `tick <ms>` (30_encoding.md R56). -/
def tickCommands (ms : Nat) : List Instr := [.actAdv, .dspAdv ms]

/-- The expansion of `seq.bounds <L>, <U>` (30_encoding.md R56). -/
def seqBoundsCommands (l u : Int) : List Instr := [cfgLowerOf l, cfgUpperOf u]

/-- The expansion of `seq.setup <L>, <U>, <T>, <N>` (30_encoding.md R56). -/
def seqSetupCommands (l u : Int) (t n : Nat) : List Instr :=
  [cfgLowerOf l, cfgUpperOf u, cfgTicksOf t, cfgTargetOf n]

/-- The expansion of `dsp.show <rgb>, <v>` (30_encoding.md R56). -/
def dspShowCommands (rgb : Nat) (v : Int) : List Instr := [.dspCol (BitVec.ofNat 32 rgb), .dspRnd v]

/-- `seq.rearm` is `seq.rst.c` (30_encoding.md R56). -/
def seqRearm : Instr := .seqRst true

/-- `seq.play` is `seq.adv.c` (30_encoding.md R56). -/
def seqPlay : Instr := .seqAdv true

/-- `dsp.blk on` is `dsp.blk on, 1000` (30_encoding.md R56). -/
def dspBlkOnDefault : Instr := .dspBlk true blinkFreqDefault

/-- The words of commands whose operands all lie in range, or an assembly error (30_encoding.md R55). -/
def wordsOf (fits : Bool) (cmds : List Instr) : Except AsmError (List CommandWord) :=
  if fits && cmds.all Instr.wellFormed then .ok (cmds.map encode) else .error .outOfRange

/-- The words of a line; a pseudo-instruction gives its commands in order, as separate steps (30_encoding.md R55,
R56). -/
def AsmLine.words : AsmLine → Except AsmError (List CommandWord)
  | .command i => wordsOf true [i]
  | .raw cw => .ok [cw]
  | .tick ms => wordsOf true (tickCommands ms)
  | .seqBounds l u => wordsOf (inSigned32 l && inSigned32 u) (seqBoundsCommands l u)
  | .seqSetup l u t n =>
    wordsOf (inSigned32 l && inSigned32 u && inUnsigned32 t && inUnsigned32 n) (seqSetupCommands l u t n)
  | .dspShow rgb v => wordsOf (inUnsigned32 rgb) (dspShowCommands rgb v)

/-! The text of a line. -/

/-- The characters that separate words. -/
def isBlank (c : Char) : Bool := c == ' ' || c == '\t'

/-- A line up to its comment: `;` starts a comment (30_encoding.md R55). -/
def withoutComment (line : List Char) : List Char := line.takeWhile (· != ';')

/-- Without blanks at either end. -/
def trimBlanks (cs : List Char) : List Char := ((cs.dropWhile isBlank).reverse.dropWhile isBlank).reverse

/-- The value of a decimal digit. -/
def decDigit (c : Char) : Option Nat :=
  if '0'.toNat ≤ c.toNat ∧ c.toNat ≤ '9'.toNat then some (c.toNat - '0'.toNat) else none

/-- The value of a hexadecimal digit, letters in either case. -/
def hexDigit (c : Char) : Option Nat :=
  if 'a'.toNat ≤ c.toNat ∧ c.toNat ≤ 'f'.toNat then some (c.toNat - 'a'.toNat + 10)
  else if 'A'.toNat ≤ c.toNat ∧ c.toNat ≤ 'F'.toNat then some (c.toNat - 'A'.toNat + 10)
  else decDigit c

/-- Digits of a base, most significant first, added to the number read so far. -/
def digitsFrom (base : Nat) (digit : Char → Option Nat) (acc : Nat) : List Char → Option Nat
  | [] => some acc
  | c :: cs =>
    match digit c with
    | some d => digitsFrom base digit (acc * base + d) cs
    | none => none

/-- A number without sign: decimal, or hexadecimal with `0x` (30_encoding.md R55). -/
def natOfText (cs : List Char) : Option Nat :=
  match cs with
  | [] => none
  | '0' :: 'x' :: [] => none
  | '0' :: 'x' :: ds => digitsFrom 16 hexDigit 0 ds
  | ds => digitsFrom 10 decDigit 0 ds

/-- A number that may be negative, "where the operand is signed" (30_encoding.md R55). -/
def intOfText (cs : List Char) : Option Int :=
  match cs with
  | '-' :: ds => (natOfText ds).map (fun n => -(n : Int))
  | ds => (natOfText ds).map (fun n => (n : Int))

/-- The pieces of a text between commas. -/
def splitCommas : List Char → List (List Char)
  | [] => [[]]
  | c :: cs =>
    match splitCommas cs with
    | [] => [[c]]
    | p :: ps => if c == ',' then [] :: p :: ps else (c :: p) :: ps

/-- A line as its mnemonic and its operands: the first word, then the rest between commas, blanks trimmed. -/
def splitLine (line : List Char) : List Char × List (List Char) :=
  let cs := trimBlanks (withoutComment line)
  let rest := trimBlanks (cs.dropWhile (fun c => !isBlank c))
  (cs.takeWhile (fun c => !isBlank c), if rest.isEmpty then [] else (splitCommas rest).map trimBlanks)

/-- A line with one operand, read by `read`. -/
def withOperand {α : Type} (read : List Char → Option α) (make : α → AsmLine) (cs : List Char) :
    Except AsmError (Option AsmLine) :=
  match read cs with
  | some v => .ok (some (make v))
  | none => .error .syntaxError

/-- A line without operand. -/
def plain (l : AsmLine) : Except AsmError (Option AsmLine) := .ok (some l)

/-- `seq.cfg lower|upper, <bound>`: a bound in its range (30_encoding.md R55). -/
def boundLine (sel : CfgSel) (cs : List Char) : Except AsmError (Option AsmLine) :=
  match intOfText cs with
  | none => .error .syntaxError
  | some v => if inSigned32 v then plain (.command (.seqCfg sel (BitVec.ofInt 32 v))) else .error .outOfRange

/-- `seq.cfg ticks|target|sel<k>, <count>`: an unsigned field in its range (30_encoding.md R55). -/
def countLine (sel : CfgSel) (cs : List Char) : Except AsmError (Option AsmLine) :=
  match natOfText cs with
  | none => .error .syntaxError
  | some v => if inUnsigned32 v then plain (.command (.seqCfg sel (BitVec.ofNat 32 v))) else .error .outOfRange

/-- The operands of `seq.cfg` (30_encoding.md R55). -/
def seqCfgLine (sel value : List Char) : Except AsmError (Option AsmLine) :=
  match sel with
  | ['l', 'o', 'w', 'e', 'r'] => boundLine .lower value
  | ['u', 'p', 'p', 'e', 'r'] => boundLine .upper value
  | ['t', 'i', 'c', 'k', 's'] => countLine .ticks value
  | ['t', 'a', 'r', 'g', 'e', 't'] => countLine .target value
  | ['s', 'e', 'l', '4'] => countLine (.unknown 4) value
  | ['s', 'e', 'l', '5'] => countLine (.unknown 5) value
  | ['s', 'e', 'l', '6'] => countLine (.unknown 6) value
  | ['s', 'e', 'l', '7'] => countLine (.unknown 7) value
  | _ => .error .syntaxError

/-- `dsp.col <rgb>`, 0..0xFFFFFFFF (30_encoding.md R55). -/
def dspColLine (cs : List Char) : Except AsmError (Option AsmLine) :=
  match natOfText cs with
  | none => .error .syntaxError
  | some v => if inUnsigned32 v then plain (.command (.dspCol (BitVec.ofNat 32 v))) else .error .outOfRange

/-- `.cw <64-bit value>` (30_encoding.md R55). -/
def rawLine (cs : List Char) : Except AsmError (Option AsmLine) :=
  match natOfText cs with
  | none => .error .syntaxError
  | some v => if v < 2 ^ 64 then plain (.raw (BitVec.ofNat 64 v)) else .error .outOfRange

/-- `dsp.blk on, <mhz>`, `dsp.blk on` and `dsp.blk off` (30_encoding.md R55, R56). -/
def dspBlkLine (ops : List (List Char)) : Except AsmError (Option AsmLine) :=
  match ops with
  | [['o', 'n'], mhz] => withOperand natOfText (fun v => .command (.dspBlk true v)) mhz
  | [['o', 'n']] => plain (.command dspBlkOnDefault)
  | [['o', 'f', 'f']] => plain (.command (.dspBlk false 0))
  | _ => .error .syntaxError

/-- `seq.bounds <L>, <U>` (30_encoding.md R56). -/
def seqBoundsLine (l u : List Char) : Except AsmError (Option AsmLine) :=
  match intOfText l, intOfText u with
  | some l, some u => plain (.seqBounds l u)
  | _, _ => .error .syntaxError

/-- `seq.setup <L>, <U>, <T>, <N>` (30_encoding.md R56). -/
def seqSetupLine (l u t n : List Char) : Except AsmError (Option AsmLine) :=
  match intOfText l, intOfText u, natOfText t, natOfText n with
  | some l, some u, some t, some n => plain (.seqSetup l u t n)
  | _, _, _, _ => .error .syntaxError

/-- `dsp.show <rgb>, <v>` (30_encoding.md R56). -/
def dspShowLine (rgb v : List Char) : Except AsmError (Option AsmLine) :=
  match natOfText rgb, intOfText v with
  | some rgb, some v => plain (.dspShow rgb v)
  | _, _ => .error .syntaxError

/-- The line of a mnemonic and its operands (30_encoding.md R55, R56). An empty mnemonic is a line without a command. -/
def lineOf (mnemonic : List Char) (ops : List (List Char)) : Except AsmError (Option AsmLine) :=
  match mnemonic, ops with
  | [], [] => .ok none
  | ['n', 'o', 'p'], [] => plain (.command .nop)
  | ['a', 'c', 't', '.', 't', 'g', 't'], [x] => withOperand intOfText (fun v => .command (.actTgt v)) x
  | ['a', 'c', 't', '.', 'a', 'd', 'v'], [] => plain (.command .actAdv)
  | ['s', 'e', 'q', '.', 'c', 'f', 'g'], [sel, x] => seqCfgLine sel x
  | ['s', 'e', 'q', '.', 'r', 's', 't'], [] => plain (.command (.seqRst false))
  | ['s', 'e', 'q', '.', 'r', 's', 't', '.', 'c'], [] => plain (.command (.seqRst true))
  | ['s', 'e', 'q', '.', 'a', 'd', 'v'], [] => plain (.command (.seqAdv false))
  | ['s', 'e', 'q', '.', 'a', 'd', 'v', '.', 'c'], [] => plain (.command (.seqAdv true))
  | ['d', 's', 'p', '.', 'c', 'o', 'l'], [x] => dspColLine x
  | ['d', 's', 'p', '.', 'b', 'l', 'k'], ops => dspBlkLine ops
  | ['d', 's', 'p', '.', 'r', 'n', 'd'], [x] => withOperand intOfText (fun v => .command (.dspRnd v)) x
  | ['d', 's', 'p', '.', 'a', 'd', 'v'], [x] => withOperand natOfText (fun v => .command (.dspAdv v)) x
  | ['.', 'c', 'w'], [x] => rawLine x
  | ['t', 'i', 'c', 'k'], [x] => withOperand natOfText .tick x
  | ['s', 'e', 'q', '.', 'b', 'o', 'u', 'n', 'd', 's'], [l, u] => seqBoundsLine l u
  | ['s', 'e', 'q', '.', 's', 'e', 't', 'u', 'p'], [l, u, t, n] => seqSetupLine l u t n
  | ['s', 'e', 'q', '.', 'r', 'e', 'a', 'r', 'm'], [] => plain (.command seqRearm)
  | ['s', 'e', 'q', '.', 'p', 'l', 'a', 'y'], [] => plain (.command seqPlay)
  | ['d', 's', 'p', '.', 's', 'h', 'o', 'w'], [rgb, v] => dspShowLine rgb v
  | _, _ => .error .syntaxError

/-- A line of text as an assembler line; a line of blanks and comment holds none (30_encoding.md R55). -/
def parseLine (line : List Char) : Except AsmError (Option AsmLine) :=
  lineOf (splitLine line).1 (splitLine line).2

/-- The words a line of text stands for (30_encoding.md R55, R56). -/
def assembleLine (line : List Char) : Except AsmError (List CommandWord) :=
  match parseLine line with
  | .error e => .error e
  | .ok none => .ok []
  | .ok (some l) => l.words

/-- The words of a program, one command or pseudo-instruction per line (30_encoding.md R55). -/
def assemble : List (List Char) → Except AsmError (List CommandWord)
  | [] => .ok []
  | l :: ls =>
    match assembleLine l, assemble ls with
    | .ok w, .ok ws => .ok (w ++ ws)
    | .error e, _ => .error e
    | _, .error e => .error e

end Sys2Proof.Machine
end

