-- ==== Sys2Proof/Machine/Outputs.lean ====
section
/-! DEFINITION. The output ports and the observation port (10_state.md R33, R35 to R37; 43_display.md R70). Each is a
function of the state: outputs always equal their registers, and an observation is not a step. -/

namespace Sys2Proof.Machine

/-- PWM_PULSE[31:0] (10_state.md R33). -/
def State.pwmPulse (s : State) : Word32 := s.actCur

/-- SEQ_POS[31:0] (10_state.md R36). -/
def State.seqPos (s : State) : Word32 := s.seqOut

/-- SEQ_VALID (10_state.md R36). -/
def State.seqValid (s : State) : Bool := s.seqFlags.valid

/-- SEQ_DONE (10_state.md R36). -/
def State.seqDone (s : State) : Bool := s.seqFlags.done

/-- SEQ_DIR (10_state.md R36). -/
def State.seqDir (s : State) : Bool := s.seqFlags.dir

/-- SEQ_CYCLES[31:0] (10_state.md R36). -/
def State.seqCycles (s : State) : Word32 := s.seqCyc

/-- STATUS_ILL (10_state.md R36). -/
def State.statusIll (s : State) : Bool := s.status.ill

/-- Whether the display shows its value: blink off, or phase on (43_display.md R70). -/
def State.shown (s : State) : Bool := !s.dspBlink.en || s.dspBlink.phase

/-- LED[i][23:0] (43_display.md R70): light i shows bit i of DSP_VALUE. -/
def State.led (s : State) (i : Fin ledCount) : BitVec 24 :=
  if s.shown && s.dspValue.getLsbD i.val then s.dspColor else 0

/-- OBS_DATA[95:0] for OBS_SEL: the register with that observation number, zero-extended; an unassigned number reads 0
(10_state.md R37, numbers of R7). -/
def State.observe (s : State) (sel : BitVec 8) : BitVec 96 :=
  match sel.toNat with
  | 0x00 => s.status.word.setWidth 96
  | 0x01 => s.actCmd.setWidth 96
  | 0x02 => s.actCur.setWidth 96
  | 0x08 => s.cfgLower.setWidth 96
  | 0x09 => s.cfgUpper.setWidth 96
  | 0x0A => s.cfgTicks.setWidth 96
  | 0x0B => s.cfgTarget.setWidth 96
  | 0x10 => s.seqL.setWidth 96
  | 0x11 => s.seqU.setWidth 96
  | 0x12 => s.seqT.setWidth 96
  | 0x13 => s.seqN.setWidth 96
  | 0x14 => s.seqAcc
  | 0x15 => s.seqFlags.word.setWidth 96
  | 0x16 => s.seqCyc.setWidth 96
  | 0x17 => s.seqOut.setWidth 96
  | 0x20 => s.dspColor.setWidth 96
  | 0x21 => s.dspValue.setWidth 96
  | 0x22 => s.dspBlink.word.setWidth 96
  | 0x23 => s.dspFreq.setWidth 96
  | 0x24 => s.dspAcc.setWidth 96
  | _ => 0

end Sys2Proof.Machine
end

