-- ==== Sys2Proof/Machine/HostDuties.lean ====
section
/-! DEFINITION. What the host sends so that the block behaves as the source's system does (70_reset_and_hazards.md R97 to
R101). These are command sequences, not behaviour of the block: the block accepts any word at any time (R94). -/

namespace Sys2Proof.Machine

/-- A display node's fields: colour, blink (off, or a frequency in mHz) and value. -/
structure DisplayFields where
  rgb : Word32
  blink : Option Nat
  value : Int
deriving DecidableEq, Repr

/-- `dsp.col`, `dsp.blk`, `dsp.rnd` with a node's display fields (R97 step 3, R100). -/
def displayCommands (f : DisplayFields) : List Instr :=
  [ .dspCol f.rgb,
    (match f.blink with
     | some mhz => .dspBlk true mhz
     | none => .dspBlk false 0),
    .dspRnd f.value ]

/-- Boot order after reset: configuration, `seq.rst.c`, display (R97). -/
def bootCommands (l u : Int) (t n : Nat) (f : DisplayFields) : List Instr :=
  seqSetupCommands l u t n ++ [.seqRst true] ++ displayCommands f

/-- The transitions of the source's state machine that have an effect on the block (R99); the machine itself is the
host's. -/
inductive HostTransition where
  /-- Short press SETTING_LOWER to SETTING_UPPER: the host keeps the candidate. -/
  | latchLower
  /-- Short press SETTING_UPPER to SAVE to STOP: the angles A(candidate) and A(reading) are committed. -/
  | save (lower upper : Int)
  /-- Short press in PLAY while done. -/
  | rearm
  /-- Long press STOP or DONE to SETTING_LOWER. -/
  | enterSetting
  /-- Long press to STOP. -/
  | enterStop
  /-- Sequencer done while in PLAY, to DONE: the host reads SEQ_DONE. -/
  | playDone
deriving DecidableEq, Repr

/-- The command sequence of each transition (R99, table). -/
def HostTransition.commands : HostTransition → List Instr
  | .latchLower => []
  | .save lower upper => [cfgLowerOf lower, cfgUpperOf upper, .seqRst true]
  | .rearm => [.seqRst true]
  | .enterSetting => [.seqRst false]
  | .enterStop => [.seqRst true]
  | .playDone => []

/-- Fast tick: `act.adv`, then `dsp.adv dt` (R100). -/
def fastTick (dt : Nat) : List Instr := tickCommands dt

/-- What commands the motor at the output cadence (R100). -/
inductive MotorSource where
  /-- Potentiometer and motor both active: the angle A(reading). -/
  | potentiometer (angle : Int)
  /-- In PLAY: the sequencer's next value. -/
  | play
  /-- Neither. -/
  | idle
deriving DecidableEq, Repr

/-- Output cadence: the motor's command, then the display fields, every output tick (R100). -/
def outputTick (m : MotorSource) (f : DisplayFields) : List Instr :=
  (match m with
   | .potentiometer angle => [.actTgt angle]
   | .play => [.seqAdv true]
   | .idle => []) ++ displayCommands f

/-- After an uncoupled SEQ.ADV the host reads SEQ_VALID, and commands SEQ_POS only if it is 1 (R100, R101). -/
def gatedTarget (s : State) : List Instr :=
  if s.seqValid then [.actTgt s.seqPos.toInt] else []

end Sys2Proof.Machine
end

