-- ==== Sys2Proof/Safety.lean ====
section
/-! DEFINITION. What the claims speak of: running a list of commands, the invariant of the register file, the sweep
precondition (70_reset_and_hazards.md R104), the landing walks of 42_sequencer.md R68, the forms of assembler lines, the units that own the registers (00_scope.md R1), safe runs. -/

namespace Sys2Proof.Machine

/-- The commands of a list in order, each against the state the previous one left (20_memory.md R45). -/
def execAll : List Instr → State → Host.Outcome State Fault Refusal
  | [], s => .next s
  | i :: is, s =>
    match exec i s with
    | .next s' => execAll is s'
    | .fault f => .fault f
    | .refused r => .refused r

/-- `s` with the given words presented at the coming steps, one a step. -/
def State.presenting (s : State) (cws : List CommandWord) : State := { s with input := cws.map present }

/-- The residual d = ACT_CMD - ACT_CUR (41_actuator.md R60). -/
def State.residual (s : State) : Int := s.actCmd.toInt - s.actCur.toInt

/-- The range facts the rules state for the registers of every reachable state. -/
structure State.Inv (s : State) : Prop where
  /-- ACT_CMD in [PULSE_LOWER, PULSE_LOWER + PULSE_INTERVAL] (10_state.md R11). -/
  actCmd_lo : s.params.pulseLower ≤ s.actCmd.toInt
  actCmd_hi : s.actCmd.toInt ≤ s.params.pulseLower + s.params.pulseInterval
  /-- ACT_CUR within MIN_STEP of that range (41_actuator.md R61). -/
  actCur_lo : s.params.pulseLower - s.params.minStep ≤ s.actCur.toInt
  actCur_hi : s.actCur.toInt ≤ s.params.pulseLower + s.params.pulseInterval + s.params.minStep
  /-- CFG_TICKS >= 1 (10_state.md R15). -/
  cfgTicks_pos : s.cfgTicks ≠ 0
  /-- SEQ_T >= 1 (10_state.md R19). -/
  seqT_pos : s.seqT ≠ 0
  /-- DSP_FREQ >= 1 (10_state.md R28). -/
  dspFreq_pos : s.dspFreq ≠ 0
  /-- DSP_ACC <= 999,999 (10_state.md R29). -/
  dspAcc_le : s.dspAcc.toNat ≤ 999999
  /-- While EN = 0, PHASE is 1 (10_state.md R27). -/
  blinkOff_phase : s.dspBlink.en = false → s.dspBlink.phase = true
  /-- EN = 0 implies DSP_ACC = 0 (43_display.md R72, corner case c). -/
  blinkOff_acc : s.dspBlink.en = false → s.dspAcc = 0

/-- The simple sufficient form of the sweep precondition on the configuration a SEQ.RST would latch
(70_reset_and_hazards.md R104). -/
def State.SweepPrecondition (s : State) : Prop :=
  s.cfgLower.toInt < s.cfgUpper.toInt ∧ s.cfgTicks.toNat % 2 = 0 ∧
  (s.cfgTicks.toNat : Int) < 4 * (s.cfgUpper.toInt - s.cfgLower.toInt) ∧ 1 ≤ s.cfgTarget.toNat

/-- The accumulator of the exact position p_k = SEQ_L + k*s, k steps from the pending lower bound in the +1 direction:
p_k * SEQ_T = SEQ_L * SEQ_T + k * STEP (42_sequencer.md R64, R68), all read from the pending configuration. -/
def State.plannedAcc (s : State) (k : Int) : Int :=
  s.cfgLower.toInt * s.cfgTicks.toNat + k * (2 * (s.cfgUpper.toInt - s.cfgLower.toInt))

/-- round_tie(p_k) of the sweep a SEQ.RST would start (42_sequencer.md R68). -/
def State.plannedPos (s : State) (k : Int) : Int := roundTie s.params.roundTie (s.plannedAcc k) s.cfgTicks.toNat

/-- The walk a SEQ.RST would start lands, first at advance n: n is R68's k*, the least number of steps whose position rounds
to a bound, and that bound is SEQ_U (42_sequencer.md R68 (a)). SEQ_U may be below SEQ_L (R69). -/
structure State.LandsAt (s : State) (n : Nat) : Prop where
  bounds_ne : s.cfgUpper ≠ s.cfgLower
  pos : 1 ≤ n
  lands : s.plannedPos n = s.cfgUpper.toInt
  first : ∀ k : Nat, 1 ≤ k → k < n → s.plannedPos k ≠ s.cfgLower.toInt ∧ s.plannedPos k ≠ s.cfgUpper.toInt

/-- R68's sufficient condition for landing at SEQ_T / 2: SEQ_T even and 4|SEQ_U - SEQ_L| > SEQ_T, on the configuration a
SEQ.RST would latch (42_sequencer.md R68). -/
def State.LandsAtHalfCycle (s : State) : Prop :=
  s.cfgTicks.toNat % 2 = 0 ∧ s.cfgTicks.toNat < 4 * (s.cfgUpper.toInt - s.cfgLower.toInt).natAbs

/-- The lower-bound visit that sets DONE: the SEQ_N-th, or, for SEQ_N = 0, the 2^32-th, where SEQ_CYC wraps to 0
(42_sequencer.md R69). -/
def State.targetVisits (s : State) : Nat := if s.cfgTarget = 0 then 2 ^ 32 else s.cfgTarget.toNat

/-- What 42_sequencer.md R68 (a) says of the state `t` at advance m * c + j (j ≤ c) of a landing walk with period c, started
by SEQ.RST from the configuration of `s`. -/
structure State.CyclePoint (s t : State) (c m j : Nat) : Prop where
  /-- Out through p_1, p_2, … and back through the same positions. -/
  position : t.seqOut.toInt = if 2 * j ≤ c then s.plannedPos j else s.plannedPos ((c : Int) - j)
  /-- "Every returned value then lies between SEQ_L and SEQ_U". -/
  above : min s.cfgLower.toInt s.cfgUpper.toInt ≤ t.seqOut.toInt
  below : t.seqOut.toInt ≤ max s.cfgLower.toInt s.cfgUpper.toInt
  /-- The walk is at SEQ_U in the middle of the cycle and at SEQ_L at its two ends. -/
  atUpper : 2 * j = c → t.seqOut = s.cfgUpper
  atLower : j = 0 ∨ j = c → t.seqOut = s.cfgLower
  valid : t.seqFlags.valid = true
  /-- DIR flips at SEQ_U and at SEQ_L. -/
  dir : t.seqFlags.dir = decide (c ≤ 2 * j ∧ j < c)
  /-- One cycle is counted at each return to SEQ_L, modulo 2^32 (00_scope.md R6). -/
  cycles : t.seqCyc = BitVec.ofNat 32 (if j = c then m + 1 else m)
  /-- DONE is set at one advance, the end of the last cycle, and at none before. -/
  done : t.seqFlags.done = decide (m * c + j = c * s.targetVisits)

/-! The forms of an assembler line (30_encoding.md R55). -/

/-- The word R55 says the assembler emits: OPC<<56 | FN<<48 | (IMM mod 2^32), the three fields being disjoint. -/
def asmWord (opc fn : Nat) (imm : Int) : CommandWord := BitVec.ofNat 64 (opc * 2 ^ 56 + fn * 2 ^ 48 + (imm % 2 ^ 32).toNat)

/-- A form of R55's list: the mnemonic, the operands written as fixed words before the number, OPC and FN. -/
structure AsmForm where
  mnemonic : List Char
  fixed : List (List Char)
  opc : Nat
  fn : Nat
deriving DecidableEq, Repr

/-- The forms of R55 without a number. -/
def plainForms : List AsmForm :=
  [ ⟨['n', 'o', 'p'], [], 0x00, 0⟩,
    ⟨['a', 'c', 't', '.', 'a', 'd', 'v'], [], 0x11, 0⟩,
    ⟨['s', 'e', 'q', '.', 'r', 's', 't'], [], 0x21, 0⟩,
    ⟨['s', 'e', 'q', '.', 'r', 's', 't', '.', 'c'], [], 0x21, 1⟩,
    ⟨['s', 'e', 'q', '.', 'a', 'd', 'v'], [], 0x22, 0⟩,
    ⟨['s', 'e', 'q', '.', 'a', 'd', 'v', '.', 'c'], [], 0x22, 1⟩,
    ⟨['d', 's', 'p', '.', 'b', 'l', 'k'], [['o', 'f', 'f']], 0x31, 0⟩ ]

/-- The forms of R55 whose number is signed: angle, bound, value. -/
def signedForms : List AsmForm :=
  [ ⟨['a', 'c', 't', '.', 't', 'g', 't'], [], 0x10, 0⟩,
    ⟨['s', 'e', 'q', '.', 'c', 'f', 'g'], [['l', 'o', 'w', 'e', 'r']], 0x20, 0⟩,
    ⟨['s', 'e', 'q', '.', 'c', 'f', 'g'], [['u', 'p', 'p', 'e', 'r']], 0x20, 1⟩,
    ⟨['d', 's', 'p', '.', 'r', 'n', 'd'], [], 0x32, 0⟩ ]

/-- The forms of R55 whose number is unsigned: count, the immediate of `sel<k>` (log entry 9), rgb, mhz, ms. -/
def unsignedForms : List AsmForm :=
  [ ⟨['s', 'e', 'q', '.', 'c', 'f', 'g'], [['t', 'i', 'c', 'k', 's']], 0x20, 2⟩,
    ⟨['s', 'e', 'q', '.', 'c', 'f', 'g'], [['t', 'a', 'r', 'g', 'e', 't']], 0x20, 3⟩,
    ⟨['s', 'e', 'q', '.', 'c', 'f', 'g'], [['s', 'e', 'l', '4']], 0x20, 4⟩,
    ⟨['s', 'e', 'q', '.', 'c', 'f', 'g'], [['s', 'e', 'l', '5']], 0x20, 5⟩,
    ⟨['s', 'e', 'q', '.', 'c', 'f', 'g'], [['s', 'e', 'l', '6']], 0x20, 6⟩,
    ⟨['s', 'e', 'q', '.', 'c', 'f', 'g'], [['s', 'e', 'l', '7']], 0x20, 7⟩,
    ⟨['d', 's', 'p', '.', 'c', 'o', 'l'], [], 0x30, 0⟩,
    ⟨['d', 's', 'p', '.', 'b', 'l', 'k'], [['o', 'n']], 0x31, 1⟩,
    ⟨['d', 's', 'p', '.', 'a', 'd', 'v'], [], 0x33, 0⟩ ]

/-- A line of text that has this form, with these operands after its fixed ones: the mnemonic, then the operands between
commas (log entry 9 says how a line is divided). -/
def AsmForm.matchesLine (f : AsmForm) (line : List Char) (ops : List (List Char)) : Prop :=
  splitLine line = (f.mnemonic, f.fixed ++ ops)

/-- The milliseconds a command brings to the blink timer: DSP.ADV's dt, and nothing otherwise (60_exceptions.md R89). -/
def dtOf : Instr → Nat
  | .nop => 0
  | .actTgt _ => 0
  | .actAdv => 0
  | .seqCfg _ _ => 0
  | .seqRst _ => 0
  | .seqAdv _ => 0
  | .dspCol _ => 0
  | .dspBlk _ _ => 0
  | .dspRnd _ => 0
  | .dspAdv dt => dt

/-- The sum of dt over the DSP.ADV commands of a list (43_display.md R75). -/
def elapsed (is : List Instr) : Nat := (is.map dtOf).sum

/-- The functional units (00_scope.md R1). -/
inductive FunctionalUnit where
  | act
  | seq
  | dsp
deriving DecidableEq, Repr

/-- The unit a command belongs to (30_encoding.md R50: "The opcode's high nibble names the unit"). -/
def unitOf : Instr → Option FunctionalUnit
  | .nop => none
  | .actTgt _ => some .act
  | .actAdv => some .act
  | .seqCfg _ _ => some .seq
  | .seqRst _ => some .seq
  | .seqAdv _ => some .seq
  | .dspCol _ => some .dsp
  | .dspBlk _ _ => some .dsp
  | .dspRnd _ => some .dsp
  | .dspAdv _ => some .dsp

/-- The coupled forms of SEQ.RST and SEQ.ADV (00_scope.md R1). -/
def isCoupled : Instr → Bool
  | .seqRst c => c
  | .seqAdv c => c
  | .nop => false
  | .actTgt _ => false
  | .actAdv => false
  | .seqCfg _ _ => false
  | .dspCol _ => false
  | .dspBlk _ _ => false
  | .dspRnd _ => false
  | .dspAdv _ => false

/-- Two states agree on the registers of ACT and on its events. -/
def State.SameAct (s t : State) : Prop := t.actCmd = s.actCmd ∧ t.actCur = s.actCur ∧ t.events = s.events

/-- Two states agree on the registers of SEQ. -/
def State.SameSeq (s t : State) : Prop :=
  t.cfgLower = s.cfgLower ∧ t.cfgUpper = s.cfgUpper ∧ t.cfgTicks = s.cfgTicks ∧ t.cfgTarget = s.cfgTarget ∧
  t.seqL = s.seqL ∧ t.seqU = s.seqU ∧ t.seqT = s.seqT ∧ t.seqN = s.seqN ∧ t.seqAcc = s.seqAcc ∧
  t.seqFlags = s.seqFlags ∧ t.seqCyc = s.seqCyc ∧ t.seqOut = s.seqOut

/-- Two states agree on the registers of DSP. -/
def State.SameDsp (s t : State) : Prop :=
  t.dspColor = s.dspColor ∧ t.dspValue = s.dspValue ∧ t.dspBlink = s.dspBlink ∧ t.dspFreq = s.dspFreq ∧
  t.dspAcc = s.dspAcc

/-- A safe run of k steps: it stops nowhere and ends with no illegal word seen (60_exceptions.md R94: a claim that the host
sends only legal words takes STATUS.ILL = 0 at the end of the run). -/
def SafeRun (k : Nat) (s : State) : Prop :=
  ∃ t, Sys2Proof.core.run k s = .next t ∧ t.status.ill = false

end Sys2Proof.Machine
end

