-- ==== Sys2Proof/Certificates/Slice0/Obligations.lean ====
section
/-! DEFINITION. The statements for the provers. Each docstring names the rule of spec/ it formalises. Every statement about
parameters holds for every parameter set, or for every admissible one; none rests on the set State.reset holds. -/

section Statements

open Sys2Proof Sys2Proof.Machine

/-! Encoding. -/

/-- 30_encoding.md R50, R52, R55: decoding the word of a command gives the command back, with every operand at every value
its field admits. -/
def Obligations.DecodeEncodeRoundTrip : Prop :=
  ∀ i : Instr, i.wellFormed = true → decode (encode i) = .ok i

/-- 30_encoding.md R50, R52: a legal word has one meaning and no bit of it is lost: encoding the command it decodes to
gives the word back, and the command is well formed. -/
def Obligations.EncodeDecodeRoundTrip : Prop :=
  ∀ (cw : CommandWord) (i : Instr), decode cw = .ok i → i.wellFormed = true ∧ encode i = cw

/-- 30_encoding.md R50: a word is a row's command iff (CW AND mask) = match, and no two rows match the same word. -/
def Obligations.TableRowsAreTheCommands : Prop :=
  (∀ (cw : CommandWord) (r : OpcodeRow), r ∈ opcodeTable →
    (r.covers cw = true ↔ ∃ i, decode cw = .ok i ∧ i.mnemonic = r.mnemonic)) ∧
  (∀ (cw : CommandWord) (r r' : OpcodeRow), r ∈ opcodeTable → r' ∈ opcodeTable →
    r.covers cw = true → r'.covers cw = true → r = r')

/-- 30_encoding.md R51: a word is legal iff exactly one row matches it; equivalently iff its four conditions hold; every
other word sets STATUS.ILL and changes nothing else; 246 opcodes are unassigned. -/
def Obligations.LegalWords : Prop :=
  (∀ cw : CommandWord, (∃ i, decode cw = .ok i) ↔ ∃! r : OpcodeRow, r ∈ opcodeTable ∧ r.covers cw = true) ∧
  (∀ cw : CommandWord, (∃ i, decode cw = .ok i) ↔
    (cw.extractLsb' 56 8 ∈ ([0x00, 0x10, 0x11, 0x20, 0x21, 0x22, 0x30, 0x31, 0x32, 0x33] : List (BitVec 8)) ∧
     cw.extractLsb' 32 16 = 0 ∧
     (if cw.extractLsb' 56 8 = 0x20 then cw.extractLsb' 51 5 = 0
      else if cw.extractLsb' 56 8 ∈ ([0x21, 0x22, 0x31] : List (BitVec 8)) then cw.extractLsb' 49 7 = 0
      else cw.extractLsb' 48 8 = 0) ∧
     (cw.extractLsb' 56 8 ∈ ([0x00, 0x11, 0x21, 0x22] : List (BitVec 8)) → cw.extractLsb' 0 32 = 0))) ∧
  (∀ (s : State) (x : PortSample) (rest : List PortSample), Admissible s.params → s.input = x :: rest →
    x.rst = false → x.cmdValid = true → (¬ ∃ i, decode x.cmd = .ok i) →
    step s = .next { s with input := rest, status := { ill := true } }) ∧
  ((List.range 256).filter (fun k => (opcodeTable.all (fun r => r.pattern.toNat / 2 ^ 56 != k)))).length = 246

/-- 95_test_vectors.md L2.1, L2.2, P1 to P4 and the examples of R59 to R74: words written out from the encoding of each
command decode to it, and words that break one condition of R51 do not decode (the names of what they break are the
model's, log entry 10). A sanity statement. -/
def Obligations.DecodeSampleWords : Prop :=
  decode 0x0000000000000000 = .ok .nop ∧ decode 0x100000000000005A = .ok (.actTgt 90) ∧
  decode 0x10000000FFFFFFFF = .ok (.actTgt (-1)) ∧ decode 0x1100000000000000 = .ok .actAdv ∧
  decode 0x20010000000000B4 = .ok (.seqCfg .upper 180) ∧ decode 0x2002000000000004 = .ok (.seqCfg .ticks 4) ∧
  decode 0x20060000DEADBEEF = .ok (.seqCfg (.unknown 6) 0xDEADBEEF) ∧
  decode 0x2101000000000000 = .ok (.seqRst true) ∧ decode 0x2200000000000000 = .ok (.seqAdv false) ∧
  decode 0x300000000000FF00 = .ok (.dspCol 0x00FF00) ∧ decode 0x31010000000007D0 = .ok (.dspBlk true 2000) ∧
  decode 0x3200000080000000 = .ok (.dspRnd (-2147483648)) ∧ decode 0x330000000000012C = .ok (.dspAdv 300) ∧
  decode 0x0000000000000001 = .error .operandBits ∧ decode 0x1001000000000005 = .error .functionBits ∧
  decode 0x1100000100000000 = .error .reservedBits ∧ decode 0x2008000000000000 = .error .functionBits ∧
  decode 0x7F00000000000000 = .error .unassignedOpcode

/-- 30_encoding.md R53: the five operand values the source silently rejects are legal encodings; executing them changes no
state, so STATUS.ILL is not set either. -/
def Obligations.SilentRejections : Prop :=
  (∀ (s : State) (k : Nat) (imm : Word32), 4 ≤ k → k ≤ 7 →
    decode (encode (.seqCfg (.unknown k) imm)) = .ok (.seqCfg (.unknown k) imm) ∧
    exec (.seqCfg (.unknown k) imm) s = .next s) ∧
  (∀ s : State, decode (encode (.seqCfg .ticks 0)) = .ok (.seqCfg .ticks 0) ∧
    exec (.seqCfg .ticks 0) s = .next s) ∧
  (∀ (s : State) (rgb : Word32), rgb.extractLsb' 24 8 ≠ 0 →
    decode (encode (.dspCol rgb)) = .ok (.dspCol rgb) ∧ exec (.dspCol rgb) s = .next s) ∧
  (∀ s : State, decode (encode (.dspBlk true 0)) = .ok (.dspBlk true 0) ∧ exec (.dspBlk true 0) s = .next s) ∧
  (∀ (s : State) (v : Int), -2 ^ 31 ≤ v → v < 2 ^ 31 → (v < 0 ∨ 255 < v) →
    decode (encode (.dspRnd v)) = .ok (.dspRnd v) ∧ exec (.dspRnd v) s = .next s)

/-- 20_memory.md R40: a byte-wide link carries a word as its eight bytes, CW[7:0] first and CW[63:56] last, and the word is
read back from them. The last clause, that a byte list of any other length (longer ones included) carries no word, is the
model's (log entry 14); R41 says only that a partial word cannot be presented. -/
def Obligations.LinkIsLittleEndian : Prop :=
  (∀ cw : CommandWord, (bytesOfWord cw).length = 8 ∧ wordOfBytes (bytesOfWord cw) = some cw ∧
    ∀ k, k < 8 → (bytesOfWord cw)[k]? = some (cw.extractLsb' (8 * k) 8)) ∧
  (∀ (bs : List Byte) (cw : CommandWord), wordOfBytes bs = some cw → bytesOfWord cw = bs) ∧
  (∀ bs : List Byte, bs.length ≠ 8 → wordOfBytes bs = none)

/-- 30_encoding.md R55: for every form of its list, as a line of text, the assembler emits OPC<<56 | FN<<48 | (IMM mod 2^32)
when the number read lies in its field's range (signed or unsigned 32 bits; 64 bits for `.cw`, which emits it as it is), and
gives an assembly error for every number outside the range and for an operand that is no such number (a negative one where
the operand is unsigned); and the same of a command built without text. How a line divides into words and reads its numbers
(`splitLine`, `natOfText`, `intOfText`), the names of the errors, and that the immediate of `sel<k>` is unsigned, are the
model's (log entry 9). -/
def Obligations.AssemblerEmitsTheWord : Prop :=
  (∀ i : Instr,
    (i.wellFormed = true →
      ∃ cw : CommandWord, (AsmLine.command i).words = .ok [cw] ∧
        cw.toNat = i.opc.toNat * 2 ^ 56 + i.fn.toNat * 2 ^ 48 + i.imm.toNat) ∧
    (i.wellFormed = false → (AsmLine.command i).words = .error .outOfRange)) ∧
  (∀ (f : AsmForm) (line : List Char), f ∈ plainForms → f.matchesLine line [] →
    assembleLine line = .ok [asmWord f.opc f.fn 0]) ∧
  (∀ (f : AsmForm) (line x : List Char), f ∈ signedForms → f.matchesLine line [x] →
    (∀ v : Int, intOfText x = some v →
      assembleLine line = if -2 ^ 31 ≤ v ∧ v < 2 ^ 31 then .ok [asmWord f.opc f.fn v] else .error .outOfRange) ∧
    (intOfText x = none → ∃ e, assembleLine line = .error e)) ∧
  (∀ (f : AsmForm) (line x : List Char), f ∈ unsignedForms → f.matchesLine line [x] →
    (∀ n : Nat, natOfText x = some n →
      assembleLine line = if n < 2 ^ 32 then .ok [asmWord f.opc f.fn n] else .error .outOfRange) ∧
    (natOfText x = none → ∃ e, assembleLine line = .error e)) ∧
  (∀ line x : List Char, splitLine line = (['.', 'c', 'w'], [x]) →
    (∀ n : Nat, natOfText x = some n →
      assembleLine line = if n < 2 ^ 64 then .ok [BitVec.ofNat 64 n] else .error .outOfRange) ∧
    (natOfText x = none → ∃ e, assembleLine line = .error e))

/-- 30_encoding.md R56: the pseudo-instructions are exactly their expansions, as separate words in order. The rest is the
model's (log entry 9), read from R55 and R56: that an operand outside the range of the command a pseudo-instruction expands
to is an assembly error, the name of that error, and how a line of text that writes one divides into words and reads its
numbers (`splitLine`, `natOfText`, `intOfText`). -/
def Obligations.PseudoInstructionsExpand : Prop :=
  (∀ ms : Nat, ms < 2 ^ 32 → (AsmLine.tick ms).words = .ok [encode .actAdv, encode (.dspAdv ms)]) ∧
  (∀ l u : Int, inSigned32 l = true → inSigned32 u = true →
    (AsmLine.seqBounds l u).words =
      .ok [encode (.seqCfg .lower (BitVec.ofInt 32 l)), encode (.seqCfg .upper (BitVec.ofInt 32 u))]) ∧
  (∀ (l u : Int) (t n : Nat), inSigned32 l = true → inSigned32 u = true → t < 2 ^ 32 → n < 2 ^ 32 →
    (AsmLine.seqSetup l u t n).words =
      .ok [encode (.seqCfg .lower (BitVec.ofInt 32 l)), encode (.seqCfg .upper (BitVec.ofInt 32 u)),
           encode (.seqCfg .ticks (BitVec.ofNat 32 t)), encode (.seqCfg .target (BitVec.ofNat 32 n))]) ∧
  (∀ (rgb : Nat) (v : Int), rgb < 2 ^ 32 → inSigned32 v = true →
    (AsmLine.dspShow rgb v).words = .ok [encode (.dspCol (BitVec.ofNat 32 rgb)), encode (.dspRnd v)]) ∧
  seqRearm = .seqRst true ∧ seqPlay = .seqAdv true ∧ dspBlkOnDefault = .dspBlk true 1000 ∧
  (∀ (l u : Int) (t n ms rgb : Nat) (v : Int),
    (2 ^ 32 ≤ ms → (AsmLine.tick ms).words = .error .outOfRange) ∧
    (inSigned32 l = false ∨ inSigned32 u = false → (AsmLine.seqBounds l u).words = .error .outOfRange) ∧
    (inSigned32 l = false ∨ inSigned32 u = false ∨ 2 ^ 32 ≤ t ∨ 2 ^ 32 ≤ n →
      (AsmLine.seqSetup l u t n).words = .error .outOfRange) ∧
    (2 ^ 32 ≤ rgb ∨ inSigned32 v = false → (AsmLine.dspShow rgb v).words = .error .outOfRange)) ∧
  (∀ line x : List Char, splitLine line = (['t', 'i', 'c', 'k'], [x]) →
    ∀ ms, natOfText x = some ms → assembleLine line = (AsmLine.tick ms).words) ∧
  (∀ line x y : List Char, splitLine line = (['s', 'e', 'q', '.', 'b', 'o', 'u', 'n', 'd', 's'], [x, y]) →
    ∀ l u, intOfText x = some l → intOfText y = some u → assembleLine line = (AsmLine.seqBounds l u).words) ∧
  (∀ line x y z w : List Char, splitLine line = (['s', 'e', 'q', '.', 's', 'e', 't', 'u', 'p'], [x, y, z, w]) →
    ∀ l u t n, intOfText x = some l → intOfText y = some u → natOfText z = some t → natOfText w = some n →
      assembleLine line = (AsmLine.seqSetup l u t n).words) ∧
  (∀ line x y : List Char, splitLine line = (['d', 's', 'p', '.', 's', 'h', 'o', 'w'], [x, y]) →
    ∀ rgb v, natOfText x = some rgb → intOfText y = some v → assembleLine line = (AsmLine.dspShow rgb v).words) ∧
  (∀ line : List Char,
    (splitLine line = (['s', 'e', 'q', '.', 'r', 'e', 'a', 'r', 'm'], []) →
      assembleLine line = .ok [encode (.seqRst true)]) ∧
    (splitLine line = (['s', 'e', 'q', '.', 'p', 'l', 'a', 'y'], []) →
      assembleLine line = .ok [encode (.seqAdv true)]) ∧
    (splitLine line = (['d', 's', 'p', '.', 'b', 'l', 'k'], [['o', 'n']]) →
      assembleLine line = .ok [encode (.dspBlk true 1000)]))

/-! The step. -/

/-- 10_state.md R31, 60_exceptions.md R84: when RST is not asserted and the presented word decodes to a command, the step
is that command, executed in the state that has taken the word from the port. -/
def Obligations.StepRunsDecodedInstruction : Prop :=
  ∀ (s : State) (x : PortSample) (rest : List PortSample) (i : Instr),
    Admissible s.params → s.input = x :: rest → x.rst = false → x.cmdValid = true → decode x.cmd = .ok i →
    step s = exec i { s with input := rest }

/-- 60_exceptions.md R81: an illegal word sets STATUS.ILL and changes nothing else (no register, no event, no record of the
word); ILL is sticky: it stays 1 under illegal words, and legal words do not clear it. -/
def Obligations.IllegalWordSetsIll : Prop :=
  (∀ (s : State) (x : PortSample) (rest : List PortSample) (e : IllegalWord),
    Admissible s.params → s.input = x :: rest → x.rst = false → x.cmdValid = true → decode x.cmd = .error e →
    step s = .next { s with input := rest, status := { ill := true } }) ∧
  (∀ (i : Instr) (s : State), ∃ t, exec i s = .next t ∧ t.status = s.status)

/-- 10_state.md R32 with the table of R7, 70_reset_and_hazards.md R95: RST puts every register at its reset value, whatever the
command port shows; R34: the event stream gets nothing. That the stream keeps the events it holds is log entry 4, and the
fields params and input are the model's own (log entries 1, 2). -/
def Obligations.ResetInput : Prop :=
  ∀ (s : State) (x : PortSample) (rest : List PortSample),
    Admissible s.params → s.input = x :: rest → x.rst = true →
    step s = .next
      { params := s.params, input := rest, status := { ill := false },
        actCmd := BitVec.ofInt 32 s.params.pulseReset, actCur := BitVec.ofInt 32 s.params.pulseReset,
        cfgLower := 0, cfgUpper := 0, cfgTicks := 1, cfgTarget := 0,
        seqL := 0, seqU := 0, seqT := 1, seqN := 0, seqAcc := 0,
        seqFlags := { dir := false, done := true, valid := false }, seqCyc := 0, seqOut := 0,
        dspColor := 0, dspValue := 0, dspBlink := { en := false, phase := true }, dspFreq := 1000, dspAcc := 0,
        events := s.events }

/-- 60_exceptions.md R93: with no command presented and RST not asserted, the block holds its state. That the ports stay
idle when the model's list of inputs is empty is the model's choice (log entry 2). -/
def Obligations.IdleStepHoldsState : Prop :=
  ∀ s : State, Admissible s.params →
    (s.input = [] → step s = .next s) ∧
    (∀ (x : PortSample) (rest : List PortSample), s.input = x :: rest → x.rst = false → x.cmdValid = false →
      step s = .next { s with input := rest })

/-- 60_exceptions.md R94: for an admissible parameter set every step gives one next state and at most one PwmWrite event,
whatever the ports show; any other set gets no behaviour. -/
def Obligations.StepTotalOrRefused : Prop :=
  ∀ s : State,
    (Admissible s.params →
      ∃ t, step s = .next t ∧ (t.events = s.events ∨ ∃ v, t.events = s.events ++ [.pwmWrite v])) ∧
    (¬ Admissible s.params → step s = .refused .inadmissibleParameters)

/-- 00_scope.md section 5 and R3: a parameter set is accepted exactly when it meets every constraint of the parameter
table and the sum of R3; any other set is refused. -/
def Obligations.ConfigureChecksParameters : Prop :=
  ∀ p : Params,
    (0 ≤ p.pulseLower → 0 ≤ p.pulseInterval → 1 ≤ p.maxAngle → p.maxAngle ≤ 2 ^ 31 - 1 → 0 ≤ p.minStep →
      p.pulseLower ≤ p.pulseReset → p.pulseReset ≤ p.pulseLower + p.pulseInterval → 0 < p.pwmFreqHz →
      p.pulseLower + p.pulseInterval + p.minStep ≤ 2 ^ 31 - 1 → configure p = .next (State.resetWith p)) ∧
    (p.pulseLower < 0 ∨ p.pulseInterval < 0 ∨ p.maxAngle < 1 ∨ 2 ^ 31 - 1 < p.maxAngle ∨ p.minStep < 0 ∨
      p.pulseReset < p.pulseLower ∨ p.pulseLower + p.pulseInterval < p.pulseReset ∨ p.pwmFreqHz ≤ 0 ∨
      2 ^ 31 - 1 < p.pulseLower + p.pulseInterval + p.minStep → configure p = .refused .inadmissibleParameters)

/-- 10_state.md R10, 60_exceptions.md R86: only RST clears STATUS.ILL. -/
def Obligations.OnlyResetClearsIll : Prop :=
  ∀ s t : State, step s = .next t → s.status.ill = true → t.status.ill = false →
    ∃ (x : PortSample) (rest : List PortSample), s.input = x :: rest ∧ x.rst = true

/-- 00_scope.md R2, 20_memory.md R45: presented words take effect in order, one at a time, each against the state the
previous one left: k steps over the words of k commands are those commands executed in a row. -/
def Obligations.PresentedWordsRunInOrder : Prop :=
  ∀ (is : List Instr) (s : State), Admissible s.params → (∀ i ∈ is, i.wellFormed = true) →
    Sys2Proof.core.run is.length (s.presenting (is.map encode)) = execAll is { s with input := [] }

/-! Reset and the invariant. -/

/-- 10_state.md R7 (reset column), R10 to R29, read through the observation port, for every parameter set. The clause that
the event stream of R34 is empty at power-on is no register's reset value: it is the model's (log entry 4). -/
def Obligations.ResetRegisters : Prop :=
  ∀ p : Params,
    let s := State.resetWith p
    s.observe 0x00 = 0 ∧ s.actCmd = BitVec.ofInt 32 p.pulseReset ∧ s.actCur = BitVec.ofInt 32 p.pulseReset ∧
    s.observe 0x08 = 0 ∧ s.observe 0x09 = 0 ∧ s.observe 0x0A = 1 ∧ s.observe 0x0B = 0 ∧ s.observe 0x10 = 0 ∧
    s.observe 0x11 = 0 ∧ s.observe 0x12 = 1 ∧ s.observe 0x13 = 0 ∧ s.observe 0x14 = 0 ∧ s.observe 0x15 = 2 ∧
    s.observe 0x16 = 0 ∧ s.observe 0x17 = 0 ∧ s.observe 0x20 = 0 ∧ s.observe 0x21 = 0 ∧ s.observe 0x22 = 2 ∧
    s.observe 0x23 = 1000 ∧ s.observe 0x24 = 0 ∧ s.events = []

/-- 70_reset_and_hazards.md R96: after reset the block is inert until it is configured: ACT.ADV, SEQ.ADV and DSP.ADV change
nothing, every light is black, and the outputs show it. -/
def Obligations.ResetIsInert : Prop :=
  ∀ p : Params,
    let s := State.resetWith p
    s.pwmPulse = BitVec.ofInt 32 p.pulseReset ∧ exec .actAdv s = .next s ∧
    s.seqDone = true ∧ s.seqValid = false ∧ (∀ c, exec (.seqAdv c) s = .next s) ∧
    (∀ i, s.led i = 0) ∧ (∀ dt, exec (.dspAdv dt) s = .next s) ∧ s.statusIll = false

/-- The range facts of 10_state.md R11, R15, R19, R27 to R29, 41_actuator.md R61 and 43_display.md R72 hold right after
reset, for every admissible parameter set. -/
def Obligations.InvHoldsAtReset : Prop :=
  ∀ p : Params, Admissible p → (State.resetWith p).Inv

/-- The range facts of 10_state.md R11, R15, R19, R27 to R29, 41_actuator.md R61 and 43_display.md R72 are kept by every
step from every state that has them, and no step changes the parameter set (log entry 1). -/
def Obligations.StepKeepsInv : Prop :=
  ∀ s t : State, s.Inv → step s = .next t → t.Inv ∧ t.params = s.params

/-! Arithmetic. -/

/-- 00_scope.md R4: round_tie(a, b) is the integer nearest to a/b, with the tie rule of ROUND_TIE at an exact half. -/
def Obligations.RoundTieIsNearest : Prop :=
  ∀ (tie : RoundTie) (a b : Int), 0 < b →
    (∀ z : Int, (a - b * roundTie tie a b).natAbs ≤ (a - b * z).natAbs) ∧
    ∃ q r : Int, b * q ≤ a ∧ a < b * (q + 1) ∧ r = a - q * b ∧
      (2 * r < b → roundTie tie a b = q) ∧ (b < 2 * r → roundTie tie a b = q + 1) ∧
      (2 * r = b → tie = .halfEven →
        (roundTie tie a b = q ∨ roundTie tie a b = q + 1) ∧ roundTie tie a b % 2 = 0) ∧
      (2 * r = b → tie = .halfAway → roundTie tie a b = if 0 ≤ q then q + 1 else q)

/-- 00_scope.md R6: a value v written to an N-bit register is stored as v mod 2^N, and a signed register reads it back as
((v + 2^(N-1)) mod 2^N) - 2^(N-1). -/
def Obligations.WritesWrapToTheWidth : Prop :=
  ∀ (w : Nat) (v : Int), 0 < w →
    ((store w v).toNat : Int) = v % 2 ^ w ∧
    (store w v).toInt = (v + 2 ^ (w - 1)) % 2 ^ w - 2 ^ (w - 1)

/-- 41_actuator.md R57: the angle-to-pulse map: its three cases, floor equal to truncation mid-range, non-decreasing, and
inside [PULSE_LOWER, PULSE_LOWER + PULSE_INTERVAL]. -/
def Obligations.AngleToPulseMap : Prop :=
  ∀ p : Params, Admissible p →
    (∀ angle : Int,
      (angle ≤ 0 → a2p p angle = p.pulseLower) ∧
      (p.maxAngle ≤ angle → a2p p angle = p.pulseLower + p.pulseInterval) ∧
      (0 < angle → angle < p.maxAngle →
        a2p p angle = p.pulseLower + (p.pulseInterval * angle).fdiv p.maxAngle ∧
        (p.pulseInterval * angle).fdiv p.maxAngle = (p.pulseInterval * angle).tdiv p.maxAngle) ∧
      p.pulseLower ≤ a2p p angle ∧ a2p p angle ≤ p.pulseLower + p.pulseInterval) ∧
    (∀ a b : Int, a ≤ b → a2p p a ≤ a2p p b)

/-- 41_actuator.md R58: pdelta(d) = round_tie(3d, 100) is odd; it is 0 exactly for |d| <= 16; exact halves occur exactly at
odd multiples of 50, where the two tie rules agree iff q = (3|d| - 50)/100 is odd. -/
def Obligations.ProportionalDelta : Prop :=
  ∀ d : Int,
    (∀ tie : RoundTie,
      pdelta tie d = roundTie tie (3 * d) 100 ∧ pdelta tie (-d) = -pdelta tie d ∧
      (pdelta tie d = 0 ↔ d.natAbs ≤ 16)) ∧
    (2 * (3 * d % 100) = 100 ↔ d.natAbs % 100 = 50) ∧
    (d.natAbs % 100 = 50 →
      2 * (3 * (d.natAbs : Int)) = 2 * (100 * ((3 * (d.natAbs : Int) - 50) / 100)) + 100 ∧
      (pdelta .halfEven d = pdelta .halfAway d ↔ (3 * (d.natAbs : Int) - 50) / 100 % 2 = 1)) ∧
    pdelta .halfEven 50 = 2 ∧ pdelta .halfAway 50 = 2 ∧ pdelta .halfEven 150 = 4 ∧ pdelta .halfAway 150 = 5

/-! Control and actuator commands. -/

/-- 44_control.md R76: NOP, the all-zero word and no other of its opcode, changes nothing. -/
def Obligations.NopChangesNothing : Prop :=
  (∀ s : State, exec .nop s = .next s) ∧
  (∀ cw : CommandWord, cw.extractLsb' 56 8 = 0 → (decode cw = .ok .nop ↔ cw = 0)) ∧
  (∀ cw : CommandWord, cw.extractLsb' 56 8 = 0 → cw ≠ 0 → ¬ ∃ i, decode cw = .ok i)

/-- 41_actuator.md R59: ACT.TGT accepts every angle, sets ACT_CMD to its pulse (clamped at the two ends) and changes nothing
else; the pulse fits the register; if ACT_CMD then equals ACT_CUR, the next ACT.ADV is a no-op. -/
def Obligations.ActTgtSetsCommand : Prop :=
  (∀ imm : Word32, decode (0x10#8 ++ 0#8 ++ 0#16 ++ imm) = .ok (.actTgt imm.toInt)) ∧
  (∀ (s : State) (angle : Int),
    exec (.actTgt angle) s = .next { s with actCmd := BitVec.ofInt 32 (a2p s.params angle) } ∧
    (angle ≤ 0 → a2p s.params angle = s.params.pulseLower) ∧
    (Admissible s.params → s.params.maxAngle ≤ angle →
      a2p s.params angle = s.params.pulseLower + s.params.pulseInterval) ∧
    (Admissible s.params → (BitVec.ofInt 32 (a2p s.params angle)).toInt = a2p s.params angle) ∧
    (s.actCmd = BitVec.ofInt 32 (a2p s.params angle) → exec (.actTgt angle) s = .next s) ∧
    (∀ t, exec (.actTgt angle) s = .next t → t.actCmd = t.actCur → exec .actAdv t = .next t)) ∧
  (∀ (s : State), s.params.pulseLower = 1000 → s.params.pulseInterval = 2000 → s.params.maxAngle = 180 →
    exec (.actTgt 90) s = .next { s with actCmd := 2000 })

/-- 41_actuator.md R60: ACT.ADV does nothing for |ACT_CMD - ACT_CUR| <= 16, whatever MIN_STEP is; otherwise ACT_CUR moves by
the proportional delta, or by MIN_STEP in its direction where the delta's magnitude is below MIN_STEP, and the new
value is emitted; nothing else changes, and under R61's ranges nothing wraps. -/
def Obligations.ActAdvMovesPulse : Prop :=
  decode 0x1100000000000000 = .ok .actAdv ∧
  ∀ s : State,
    (s.residual.natAbs ≤ 16 → exec .actAdv s = .next s) ∧
    (17 ≤ s.residual.natAbs →
      ∃ delta : Int,
        ((pdelta s.params.roundTie s.residual).natAbs < s.params.minStep →
          delta = s.residual.sign * s.params.minStep) ∧
        (s.params.minStep ≤ (pdelta s.params.roundTie s.residual).natAbs →
          delta = pdelta s.params.roundTie s.residual) ∧
        exec .actAdv s = .next { s with
          actCur := BitVec.ofInt 32 (s.actCur.toInt + delta)
          events := s.events ++ [.pwmWrite (BitVec.ofInt 32 (s.actCur.toInt + delta))] } ∧
        (Admissible s.params → s.Inv →
          (BitVec.ofInt 32 (s.actCur.toInt + delta)).toInt = s.actCur.toInt + delta))

/-- 41_actuator.md R62, with d and d' the residual before and after an ACT.ADV. -/
def Obligations.ActAdvProgress : Prop :=
  ∀ s : State, Admissible s.params → s.Inv →
    ∃ t, exec .actAdv s = .next t ∧
      (s.residual.natAbs ≤ 16 → t.residual = s.residual) ∧
      (17 ≤ s.residual.natAbs → s.params.minStep ≤ s.residual.natAbs →
        t.residual.natAbs < s.residual.natAbs ∧ (t.residual.sign = s.residual.sign ∨ t.residual = 0)) ∧
      (17 ≤ s.residual.natAbs → s.residual.natAbs < s.params.minStep →
        t.residual = s.residual - s.residual.sign * s.params.minStep ∧
        (t.residual.natAbs : Int) = s.params.minStep - s.residual.natAbs) ∧
      (t.actCur ≠ s.actCur → (t.actCur.toInt - s.actCur.toInt).sign = s.residual.sign) ∧
      (exec .actAdv s = .next s ↔ s.residual.natAbs ≤ 16)

/-- 41_actuator.md R63: with MIN_STEP <= 33 every run of ACT.ADV reaches a fixed point; with MIN_STEP >= 34 a residual of
magnitude 17 .. MIN_STEP - 17 never settles: it swaps with d - sign(d) * MIN_STEP, both of magnitude in
[17, MIN_STEP), and every advance emits an event. -/
def Obligations.ActAdvSettlesOrOscillates : Prop :=
  (∀ s : State, Admissible s.params → s.Inv → s.params.minStep ≤ 33 →
    ∃ (n : Nat) (t : State), execAll (List.replicate n .actAdv) s = .next t ∧ exec .actAdv t = .next t) ∧
  (∀ s : State, Admissible s.params → s.Inv → 34 ≤ s.params.minStep → 17 ≤ s.residual.natAbs →
    (s.residual.natAbs : Int) ≤ s.params.minStep - 17 →
    ∀ n : Nat, ∃ t, execAll (List.replicate n .actAdv) s = .next t ∧
      t.residual = (if n % 2 = 0 then s.residual else s.residual - s.residual.sign * s.params.minStep) ∧
      17 ≤ t.residual.natAbs ∧ (t.residual.natAbs : Int) < s.params.minStep ∧
      t.events.length = s.events.length + n)

/-! Sequencer commands. -/

/-- 42_sequencer.md R65: SEQ.CFG writes one pending register and changes nothing else, the active sweep least of all; an
unknown selector and a zero tick count are rejected. -/
def Obligations.SeqCfgWritesPending : Prop :=
  decode 0x20010000000000B4 = .ok (.seqCfg .upper 180) ∧
  ∀ (s : State) (imm : Word32),
    exec (.seqCfg .lower imm) s = .next { s with cfgLower := imm } ∧
    exec (.seqCfg .upper imm) s = .next { s with cfgUpper := imm } ∧
    (imm ≠ 0 → exec (.seqCfg .ticks imm) s = .next { s with cfgTicks := imm }) ∧
    exec (.seqCfg .ticks 0) s = .next s ∧
    exec (.seqCfg .target imm) s = .next { s with cfgTarget := imm } ∧
    (∀ k, exec (.seqCfg (.unknown k) imm) s = .next s)

/-- 42_sequencer.md R66: SEQ.RST latches the pending configuration, restarts the sweep exactly at its lower bound with
direction +1 and no cycle, clears DONE and returns the lower bound; the coupled form commands it. -/
def Obligations.SeqRstStartsSweep : Prop :=
  decode 0x2100000000000000 = .ok (.seqRst false) ∧ decode 0x2101000000000000 = .ok (.seqRst true) ∧
  ∀ (s : State) (c : Bool), ∃ acc : BitVec 96,
    acc.toInt = s.cfgLower.toInt * s.cfgTicks.toNat ∧
    exec (.seqRst c) s = .next { s with
      seqL := s.cfgLower, seqU := s.cfgUpper, seqT := s.cfgTicks, seqN := s.cfgTarget
      seqAcc := acc, seqFlags := { dir := false, done := false, valid := true }
      seqCyc := 0, seqOut := s.cfgLower
      actCmd := if c then BitVec.ofInt 32 (a2p s.params s.cfgLower.toInt) else s.actCmd }

/-- 42_sequencer.md R67: SEQ.ADV returns none while DONE, changing only VALID; else it moves the exact position one step,
flips DIR once at a bound, counts a lower-bound visit modulo 2^32, sets DONE when the count reaches SEQ_N, and
returns the rounded position, which the coupled form commands. -/
def Obligations.SeqAdvNextPosition : Prop :=
  decode 0x2200000000000000 = .ok (.seqAdv false) ∧ decode 0x2201000000000000 = .ok (.seqAdv true) ∧
  ∀ (s : State) (c : Bool),
    (s.seqFlags.done = true →
      exec (.seqAdv c) s = .next { s with seqFlags := { s.seqFlags with valid := false } }) ∧
    (s.seqFlags.done = false →
      let stepSize := 2 * (s.seqU.toInt - s.seqL.toInt)
      let acc := BitVec.ofInt 96 (if s.seqFlags.dir then s.seqAcc.toInt - stepSize else s.seqAcc.toInt + stepSize)
      let r := roundTie s.params.roundTie acc.toInt s.seqT.toNat
      exec (.seqAdv c) s = .next { s with
        seqAcc := acc
        seqFlags :=
          { dir := if r = s.seqU.toInt ∨ r = s.seqL.toInt then !s.seqFlags.dir else s.seqFlags.dir
            done := decide (r = s.seqL.toInt ∧ s.seqCyc + 1 = s.seqN)
            valid := true }
        seqCyc := if r = s.seqL.toInt then s.seqCyc + 1 else s.seqCyc
        seqOut := BitVec.ofInt 32 r
        actCmd := if c then BitVec.ofInt 32 (a2p s.params (BitVec.ofInt 32 r).toInt) else s.actCmd })

/-- 70_reset_and_hazards.md R100, R101: SEQ.ADV.C is SEQ.ADV followed by ACT.TGT SEQ_POS only if SEQ_VALID = 1; and SEQ.RST.C is
SEQ.RST followed by ACT.TGT of the position it returns (42_sequencer.md R66). -/
def Obligations.CoupledFormsAreGatedTargets : Prop :=
  ∀ s : State,
    (∃ t, exec (.seqAdv false) s = .next t ∧ exec (.seqAdv true) s = execAll (gatedTarget t) t) ∧
    (∃ t, exec (.seqRst false) s = .next t ∧ exec (.seqRst true) s = exec (.actTgt t.seqPos.toInt) t)

/-- 42_sequencer.md R68 (a), its sufficient condition (SEQ_T even, 4|SEQ_U - SEQ_L| > SEQ_T) and R69 (SEQ_U < SEQ_L): then
k* = SEQ_T/2 and one cycle takes exactly SEQ_T advances: to SEQ_U at advance SEQ_T/2, where DIR flips, and back through the
same positions to SEQ_L, every returned value between the bounds; 70_reset_and_hazards.md R104: its form is a case of that
condition. -/
def Obligations.SweepLandsOnBothBounds : Prop :=
  (∀ s : State, s.SweepPrecondition → s.LandsAtHalfCycle) ∧
  ∀ s : State, s.Inv → s.LandsAtHalfCycle →
    s.LandsAt (s.cfgTicks.toNat / 2) ∧
    ∃ t0, exec (.seqRst false) s = .next t0 ∧
      ∀ k : Nat, k ≤ s.cfgTicks.toNat →
        ∃ t, execAll (List.replicate k (.seqAdv false)) t0 = .next t ∧
          t.seqOut.toInt =
            (if 2 * k ≤ s.cfgTicks.toNat then s.plannedPos k else s.plannedPos ((s.cfgTicks.toNat : Int) - k)) ∧
          min s.cfgLower.toInt s.cfgUpper.toInt ≤ t.seqOut.toInt ∧
          t.seqOut.toInt ≤ max s.cfgLower.toInt s.cfgUpper.toInt ∧
          t.seqFlags.valid = true ∧
          t.seqFlags.dir = decide (s.cfgTicks.toNat ≤ 2 * k ∧ k < s.cfgTicks.toNat) ∧
          (2 * k = s.cfgTicks.toNat → t.seqOut = s.cfgUpper) ∧
          (k = s.cfgTicks.toNat → t.seqOut = s.cfgLower) ∧
          t.seqCyc = (if k = s.cfgTicks.toNat then 1 else 0) ∧
          t.seqFlags.done = decide (k = s.cfgTicks.toNat ∧ s.cfgTarget = 1)

/-- 42_sequencer.md R68 (a) under its sufficient condition, R69 (SEQ_U < SEQ_L, SEQ_N = 0): at every advance
k = m * SEQ_T + j of every cycle m up to the last, the walk is at the position, direction and count the rule gives, within
the bounds, and DONE = 1 exactly when k = SEQ_T * SEQ_N (SEQ_T * 2^32 for SEQ_N = 0, where SEQ_CYC wraps). -/
def Obligations.SweepDoneAfterTargetCycles : Prop :=
  ∀ s : State, s.Inv → s.LandsAtHalfCycle →
    ∃ t0, exec (.seqRst false) s = .next t0 ∧
      ∀ m j : Nat, m < s.targetVisits → j ≤ s.cfgTicks.toNat →
        ∃ t, execAll (List.replicate (m * s.cfgTicks.toNat + j) (.seqAdv false)) t0 = .next t ∧
          s.CyclePoint t s.cfgTicks.toNat m j

/-- 42_sequencer.md R68 (a), R69: every walk that lands, first at advance n = k*, is periodic with period 2n: at every advance
of every cycle up to the last it is at the position, direction and count the rule gives, within the bounds, and DONE = 1
exactly at advance 2n * SEQ_N (2n * 2^32 for SEQ_N = 0). -/
def Obligations.SweepPeriodicOnceLanding : Prop :=
  ∀ (s : State) (n : Nat), s.Inv → s.LandsAt n →
    ∃ t0, exec (.seqRst false) s = .next t0 ∧
      ∀ m j : Nat, m < s.targetVisits → j ≤ 2 * n →
        ∃ t, execAll (List.replicate (m * (2 * n) + j) (.seqAdv false)) t0 = .next t ∧ s.CyclePoint t (2 * n) m j

/-- 42_sequencer.md R68 (b), R69 (zero step, SEQ_N = 0): where the first position rounds to the lower bound, every advance
returns it, flips DIR and counts a cycle, and DONE is set at advance SEQ_N; with SEQ_N = 0 it is not set before the
count wraps. -/
def Obligations.SweepStuckAtLower : Prop :=
  ∀ s : State, s.Inv → s.plannedPos 1 = s.cfgLower.toInt →
    ∃ t0, exec (.seqRst false) s = .next t0 ∧
      ∀ m : Nat, (m ≤ s.cfgTarget.toNat ∨ s.cfgTarget = 0 ∧ m < 2 ^ 32) →
        ∃ t, execAll (List.replicate m (.seqAdv false)) t0 = .next t ∧
          t.seqOut = s.cfgLower ∧ t.seqFlags.dir = decide (m % 2 = 1) ∧ t.seqCyc.toNat = m ∧
          t.seqFlags.done = decide (m ≠ 0 ∧ m = s.cfgTarget.toNat)

/-- 42_sequencer.md R68 (c): where no position rounds to a bound, the walk escapes: DIR never flips, SEQ_CYC stays 0 and DONE is
never set. Said for 2^62 advances, within which SEQ_ACC does not wrap (00_scope.md R6). -/
def Obligations.SweepEscapes : Prop :=
  ∀ s : State, s.Inv →
    (∀ k : Nat, 1 ≤ k → s.plannedPos k ≠ s.cfgLower.toInt ∧ s.plannedPos k ≠ s.cfgUpper.toInt) →
    ∃ t0, exec (.seqRst false) s = .next t0 ∧
      ∀ k : Nat, k ≤ 2 ^ 62 →
        ∃ t, execAll (List.replicate k (.seqAdv false)) t0 = .next t ∧
          t.seqAcc.toInt = s.plannedAcc k ∧ t.seqFlags.dir = false ∧ t.seqCyc = 0 ∧ t.seqFlags.done = false

/-! Display commands and outputs. -/

/-- 43_display.md R70: light i shows bit i of DSP_VALUE in DSP_COLOR while the display is shown, else black, and no other bit
matters to it. -/
def Obligations.LedShowsItsBit : Prop :=
  ∀ (s : State) (i : Fin 8),
    s.led i = (if (s.dspBlink.en = false ∨ s.dspBlink.phase = true) ∧ s.dspValue.getLsbD i.val = true
               then s.dspColor else 0) ∧
    (∀ v : BitVec 8, v.getLsbD i.val = s.dspValue.getLsbD i.val → State.led { s with dspValue := v } i = s.led i)

/-- 43_display.md R71: DSP.COL sets the colour from IMM[23:0], or is rejected if IMM[31:24] is not 0. -/
def Obligations.DspColSetsColour : Prop :=
  decode 0x300000000000FF00 = .ok (.dspCol 0x00FF00) ∧
  ∀ (s : State) (rgb : Word32),
    (rgb.extractLsb' 24 8 = 0 → exec (.dspCol rgb) s = .next { s with dspColor := rgb.extractLsb' 0 24 }) ∧
    (rgb.extractLsb' 24 8 ≠ 0 → exec (.dspCol rgb) s = .next s)

/-- 43_display.md R72: DSP.BLK off; on with frequency 0; on from off; on while already on; off when already off. -/
def Obligations.DspBlkSwitchesBlink : Prop :=
  decode 0x31010000000007D0 = .ok (.dspBlk true 2000) ∧
  ∀ (s : State) (mhz : Nat),
    exec (.dspBlk false mhz) s = .next { s with dspBlink := { en := false, phase := true }, dspAcc := 0 } ∧
    exec (.dspBlk true 0) s = .next s ∧
    (mhz ≠ 0 → s.dspBlink.en = false →
      exec (.dspBlk true mhz) s = .next { s with
        dspBlink := { en := true, phase := true }, dspAcc := 0, dspFreq := BitVec.ofNat 32 mhz }) ∧
    (mhz ≠ 0 → s.dspBlink.en = true →
      exec (.dspBlk true mhz) s = .next { s with dspFreq := BitVec.ofNat 32 mhz }) ∧
    (s.Inv → s.dspBlink.en = false → exec (.dspBlk false mhz) s = .next s)

/-- 43_display.md R73: DSP.RND latches a value in [0, 255] and rejects any other before the latch. -/
def Obligations.DspRndLatchesValue : Prop :=
  decode 0x32000000000000A5 = .ok (.dspRnd 0xA5) ∧
  ∀ (s : State) (v : Int),
    (0 ≤ v → v ≤ 255 → exec (.dspRnd v) s = .next { s with dspValue := BitVec.ofInt 8 v } ∧
      ((BitVec.ofInt 8 v).toNat : Int) = v) ∧
    (v < 0 ∨ 255 < v → exec (.dspRnd v) s = .next s)

/-- 43_display.md R74: DSP.ADV does nothing with blink off, or for dt = 0; else it adds dt * DSP_FREQ to the timer, keeps the
remainder of a whole number n of toggle intervals and inverts PHASE iff n is odd. -/
def Obligations.DspAdvAdvancesTimer : Prop :=
  decode 0x330000000000012C = .ok (.dspAdv 300) ∧
  ∀ (s : State) (dt : Nat),
    (s.dspBlink.en = false → exec (.dspAdv dt) s = .next s) ∧
    (s.dspBlink.en = true →
      ∃ (acc : BitVec 20) (n : Nat),
        n * 1000000 + acc.toNat = s.dspAcc.toNat + dt * s.dspFreq.toNat ∧ acc.toNat < 1000000 ∧
        exec (.dspAdv dt) s = .next { s with
          dspAcc := acc
          dspBlink := { en := true, phase := if n % 2 = 1 then !s.dspBlink.phase else s.dspBlink.phase } }) ∧
    (s.Inv → exec (.dspAdv 0) s = .next s)

/-- 43_display.md R75: once blink is switched on and stays on at frequency f, PHASE = 1 iff floor(E * f / 1,000,000) is even,
with E the sum of dt over the DSP.ADV commands since, whatever other commands come between. -/
def Obligations.BlinkPhaseFollowsElapsedTime : Prop :=
  ∀ (s : State) (f : Nat) (is : List Instr),
    s.dspBlink.en = false → 0 < f → f < 2 ^ 32 →
    (∀ i ∈ is, ∀ (en : Bool) (mhz : Nat), i = .dspBlk en mhz → en = true ∧ mhz = f) →
    ∃ t0 t, exec (.dspBlk true f) s = .next t0 ∧ execAll is t0 = .next t ∧
      t.dspBlink.en = true ∧ t.dspFreq.toNat = f ∧
      (t.dspBlink.phase = true ↔ elapsed is * f / 1000000 % 2 = 0)

/-- 70_reset_and_hazards.md R103: repeating `dsp.blk on` changes only DSP_FREQ and keeps the phase; off then on restarts it
at "on" with a fresh interval. -/
def Obligations.RepeatedBlinkSettings : Prop :=
  ∀ (s : State) (f : Nat), f ≠ 0 →
    (s.dspBlink.en = true → exec (.dspBlk true f) s = .next { s with dspFreq := BitVec.ofNat 32 f }) ∧
    execAll [.dspBlk false 0, .dspBlk true f] s =
      .next { s with dspBlink := { en := true, phase := true }, dspAcc := 0, dspFreq := BitVec.ofNat 32 f }

/-- 10_state.md R33, R36: the outputs always equal their registers. -/
def Obligations.OutputsEqualRegisters : Prop :=
  ∀ s : State, s.pwmPulse = s.actCur ∧ s.seqPos = s.seqOut ∧ s.seqValid = s.seqFlags.valid ∧
    s.seqDone = s.seqFlags.done ∧ s.seqDir = s.seqFlags.dir ∧ s.seqCycles = s.seqCyc ∧ s.statusIll = s.status.ill

/-- 10_state.md R37 with the numbers of R7: the observation port returns the register with the number asked for,
zero-extended, SEQ_ACC whole, and 0 for an unassigned number; R10, R22, R25, R27: reserved bits read 0. -/
def Obligations.ObservationPort : Prop :=
  ∀ s : State,
    s.observe 0x00 = (BitVec.ofBool s.status.ill).setWidth 96 ∧
    s.observe 0x01 = s.actCmd.setWidth 96 ∧ s.observe 0x02 = s.actCur.setWidth 96 ∧
    s.observe 0x08 = s.cfgLower.setWidth 96 ∧ s.observe 0x09 = s.cfgUpper.setWidth 96 ∧
    s.observe 0x0A = s.cfgTicks.setWidth 96 ∧ s.observe 0x0B = s.cfgTarget.setWidth 96 ∧
    s.observe 0x10 = s.seqL.setWidth 96 ∧ s.observe 0x11 = s.seqU.setWidth 96 ∧
    s.observe 0x12 = s.seqT.setWidth 96 ∧ s.observe 0x13 = s.seqN.setWidth 96 ∧ s.observe 0x14 = s.seqAcc ∧
    s.observe 0x15 =
      (BitVec.ofBool s.seqFlags.valid ++ BitVec.ofBool s.seqFlags.done ++ BitVec.ofBool s.seqFlags.dir).setWidth 96 ∧
    s.observe 0x16 = s.seqCyc.setWidth 96 ∧ s.observe 0x17 = s.seqOut.setWidth 96 ∧
    s.observe 0x20 = s.dspColor.setWidth 96 ∧ s.observe 0x21 = s.dspValue.setWidth 96 ∧
    s.observe 0x22 = (BitVec.ofBool s.dspBlink.phase ++ BitVec.ofBool s.dspBlink.en).setWidth 96 ∧
    s.observe 0x23 = s.dspFreq.setWidth 96 ∧ s.observe 0x24 = s.dspAcc.setWidth 96 ∧
    (∀ sel : BitVec 8,
      sel.toNat ∉ [0x00, 0x01, 0x02, 0x08, 0x09, 0x0A, 0x0B, 0x10, 0x11, 0x12, 0x13, 0x14, 0x15, 0x16, 0x17,
        0x20, 0x21, 0x22, 0x23, 0x24] → s.observe sel = 0)

/-! The whole block. -/

/-- 00_scope.md R1: a unit writes another unit's registers only through the coupled forms, and those write only ACT_CMD; no
command writes STATUS (R10), or the model's own fields params and input (log entries 1, 2). -/
def Obligations.UnitsOwnTheirRegisters : Prop :=
  ∀ (i : Instr) (s : State), ∃ t, exec i s = .next t ∧
    (unitOf i ≠ some .act → isCoupled i = false → s.SameAct t) ∧
    (isCoupled i = true → t.actCur = s.actCur ∧ t.events = s.events) ∧
    (unitOf i ≠ some .seq → s.SameSeq t) ∧
    (unitOf i ≠ some .dsp → s.SameDsp t) ∧
    t.status = s.status ∧ t.params = s.params ∧ t.input = s.input

/-- 10_state.md R30: each flag is written only by the commands its rule names. -/
def Obligations.FlagsHaveTheirWriters : Prop :=
  ∀ (i : Instr) (s t : State), exec i s = .next t →
    (t.status.ill = s.status.ill) ∧
    (t.seqFlags ≠ s.seqFlags → ∃ c, i = .seqRst c ∨ i = .seqAdv c) ∧
    (t.dspBlink.en ≠ s.dspBlink.en → ∃ en mhz, i = .dspBlk en mhz) ∧
    (t.dspBlink.phase ≠ s.dspBlink.phase → (∃ en mhz, i = .dspBlk en mhz) ∨ ∃ dt, i = .dspAdv dt)

/-- 10_state.md R34: ACT.ADV appends PwmWrite(ACT_CUR) when it changes ACT_CUR, and only then; no other command appends an
event, and reset appends none. That RST leaves the stream as it is, clearing nothing, is the model's (log entry 4). -/
def Obligations.EventsRecordPulseMoves : Prop :=
  (∀ (i : Instr) (s t : State), Admissible s.params → exec i s = .next t →
    (t.events ≠ s.events ↔ i = .actAdv ∧ t.actCur ≠ s.actCur) ∧
    (i = .actAdv → t.actCur ≠ s.actCur → t.events = s.events ++ [.pwmWrite t.actCur]) ∧
    (t.actCur ≠ s.actCur → i = .actAdv)) ∧
  (∀ (s t : State) (x : PortSample) (rest : List PortSample), s.input = x :: rest → x.rst = true →
    step s = .next t → t.events = s.events)

/-- 20_memory.md R42: DSP.COL, DSP.RND, SEQ.CFG, ACT.TGT and DSP.BLK (when blink is already in the same mode) are
idempotent. -/
def Obligations.IdempotentCommands : Prop :=
  ∀ (i : Instr) (s : State),
    (match i with
     | .dspCol _ => True
     | .dspRnd _ => True
     | .seqCfg _ _ => True
     | .actTgt _ => True
     | .dspBlk en _ => s.dspBlink.en = en
     | _ => False) →
    ∃ t, exec i s = .next t ∧ exec i t = .next t

/-- 70_reset_and_hazards.md R97: after reset, the four configuration commands in any order, `seq.rst.c`, then the three display
commands in any order bring the block into the booted state. That the event stream is empty then rests on its being empty
at power-on, which is the model's (log entry 4). -/
def Obligations.BootOrder : Prop :=
  ∀ (p : Params) (l u : Int) (t n : Nat) (f : DisplayFields) (step1 step3 : List Instr),
    inSigned32 l = true → inSigned32 u = true → 0 < t → t < 2 ^ 32 → n < 2 ^ 32 →
    f.rgb.extractLsb' 24 8 = 0 → (∀ mhz, f.blink = some mhz → 0 < mhz ∧ mhz < 2 ^ 32) → 0 ≤ f.value → f.value ≤ 255 →
    step1.Perm (seqSetupCommands l u t n) → step3.Perm (displayCommands f) →
    ∃ r, execAll (step1 ++ [.seqRst true] ++ step3) (State.resetWith p) = .next r ∧
      r.cfgLower.toInt = l ∧ r.cfgUpper.toInt = u ∧ r.cfgTicks.toNat = t ∧ r.cfgTarget.toNat = n ∧
      r.seqL.toInt = l ∧ r.seqU.toInt = u ∧ r.seqT.toNat = t ∧ r.seqN.toNat = n ∧
      r.seqAcc.toInt = l * t ∧ r.seqOut.toInt = l ∧ r.seqCyc = 0 ∧
      r.seqFlags = { dir := false, done := false, valid := true } ∧
      r.actCmd = BitVec.ofInt 32 (a2p p l) ∧ r.actCur = BitVec.ofInt 32 p.pulseReset ∧ r.events = [] ∧
      r.dspColor = f.rgb.extractLsb' 0 24 ∧ (r.dspValue.toNat : Int) = f.value ∧
      r.dspBlink = { en := f.blink.isSome, phase := true } ∧ r.dspAcc = 0 ∧
      r.dspFreq.toNat = f.blink.getD 1000 ∧ r.status.ill = false

end Statements
end

