-- ==== Sys2Proof/Laws/Decode.lean ====
section
/-! SUPPORT. The fields of a word and of an encoded command (30_encoding.md R48). -/

namespace Sys2Proof

theorem inSigned32_iff (v : Int) : inSigned32 v = true ↔ -2 ^ 31 ≤ v ∧ v < 2 ^ 31 := by simp [inSigned32]

theorem inUnsigned32_iff (v : Nat) : inUnsigned32 v = true ↔ v < 2 ^ 32 := by simp [inUnsigned32]

/-- A word is its four fields side by side. -/
theorem fields_append (cw : CommandWord) :
    (opcField cw ++ fnField cw ++ rsvField cw ++ immField cw : CommandWord) = cw := by
  apply BitVec.eq_of_getLsbD_eq
  intro k hk
  simp only [opcField, fnField, rsvField, immField, BitVec.getLsbD_append, BitVec.getLsbD_extractLsb']
  by_cases h1 : k < 32
  · simp [h1]
  · by_cases h2 : k - 32 < 16
    · simp [h1, h2, show 32 + (k - 32) = k by omega]
    · by_cases h3 : k - 32 - 16 < 8
      · simp [h1, h2, h3, show 48 + (k - 32 - 16) = k by omega]
      · simp [h1, h2, h3, show k - 32 - 16 - 8 < 8 by omega, show 56 + (k - 32 - 16 - 8) = k by omega]

theorem opcField_append (o f : BitVec 8) (v : BitVec 16) (m : Word32) :
    opcField (o ++ f ++ v ++ m : CommandWord) = o := by
  apply BitVec.eq_of_getLsbD_eq
  intro k hk
  simp only [opcField, BitVec.getLsbD_append, BitVec.getLsbD_extractLsb']
  simp [hk, show ¬ (56 + k < 32) by omega, show ¬ (56 + k - 32 < 16) by omega,
    show ¬ (56 + k - 32 - 16 < 8) by omega, show 56 + k - 32 - 16 - 8 = k by omega]

theorem fnField_append (o f : BitVec 8) (v : BitVec 16) (m : Word32) :
    fnField (o ++ f ++ v ++ m : CommandWord) = f := by
  apply BitVec.eq_of_getLsbD_eq
  intro k hk
  simp only [fnField, BitVec.getLsbD_append, BitVec.getLsbD_extractLsb']
  simp [hk, show ¬ (48 + k < 32) by omega, show ¬ (48 + k - 32 < 16) by omega,
    show 48 + k - 32 - 16 = k by omega]

theorem rsvField_append (o f : BitVec 8) (v : BitVec 16) (m : Word32) :
    rsvField (o ++ f ++ v ++ m : CommandWord) = v := by
  apply BitVec.eq_of_getLsbD_eq
  intro k hk
  simp only [rsvField, BitVec.getLsbD_append, BitVec.getLsbD_extractLsb']
  simp [hk, show ¬ (32 + k < 32) by omega, show 32 + k - 32 = k by omega]

theorem immField_append (o f : BitVec 8) (v : BitVec 16) (m : Word32) :
    immField (o ++ f ++ v ++ m : CommandWord) = m := by
  apply BitVec.eq_of_getLsbD_eq
  intro k hk
  simp only [immField, BitVec.getLsbD_append, BitVec.getLsbD_extractLsb']
  simp [hk]

@[simp] theorem opcField_encode (i : Instr) : opcField (encode i) = i.opc := opcField_append _ _ _ _
@[simp] theorem fnField_encode (i : Instr) : fnField (encode i) = i.fn := fnField_append _ _ _ _
@[simp] theorem rsvField_encode (i : Instr) : rsvField (encode i) = 0 := rsvField_append _ _ _ _
@[simp] theorem immField_encode (i : Instr) : immField (encode i) = i.imm := immField_append _ _ _ _

/-- A word with RSV = 0 whose other fields are a command's is that command's word. -/
theorem encode_eq_of_fields {i : Instr} {cw : CommandWord} (ho : opcField cw = i.opc) (hf : fnField cw = i.fn)
    (hr : rsvField cw = 0) (hm : immField cw = i.imm) : encode i = cw := by
  rw [← fields_append cw, ho, hf, hr, hm, encode]

/-- One flag in FN[0] is all of FN when FN[7:1] = 0. -/
theorem fnOfFlag_getLsbD : ∀ f : BitVec 8, (f.extractLsb' 1 7 == 0) = true → fnOfFlag (f.getLsbD 0) = f := by decide

/-- FN[2:0] is all of FN when FN[7:3] = 0. -/
theorem setWidth_sel : ∀ f : BitVec 8, (f.extractLsb' 3 5 == 0) = true → (f.extractLsb' 0 3).setWidth 8 = f := by decide

/-- A selector's number names it. -/
theorem bits_selOfBits : ∀ k : BitVec 3, (selOfBits k).bits = k := by decide

/-- `checked` answers a command exactly when both of its conditions hold, and then the one it was given. -/
theorem checked_eq_ok (fnOk immOk : Bool) (i j : Instr) :
    checked fnOk immOk i = .ok j ↔ fnOk = true ∧ immOk = true ∧ i = j := by
  unfold checked
  cases fnOk <;> cases immOk <;> simp

end Sys2Proof
end

