-- ==== Sys2Proof/Laws/Assembler.lean ====
section
/-! SUPPORT. What the assembler's readers give (30_encoding.md R55): one equation per form of line, so that no proof unfolds
`lineOf`, and the word of R55 as the encoder's. -/

namespace Sys2Proof.Machine

/-! The line of each form. -/

theorem lineOf_nop : lineOf ['n', 'o', 'p'] [] = plain (.command .nop) := rfl
theorem lineOf_actTgt (x : List Char) :
    lineOf ['a', 'c', 't', '.', 't', 'g', 't'] [x] = withOperand intOfText (fun v => .command (.actTgt v)) x := rfl
theorem lineOf_actAdv : lineOf ['a', 'c', 't', '.', 'a', 'd', 'v'] [] = plain (.command .actAdv) := rfl
theorem lineOf_seqCfg (sel x : List Char) : lineOf ['s', 'e', 'q', '.', 'c', 'f', 'g'] [sel, x] = seqCfgLine sel x := rfl
theorem lineOf_seqRst : lineOf ['s', 'e', 'q', '.', 'r', 's', 't'] [] = plain (.command (.seqRst false)) := rfl
theorem lineOf_seqRstC : lineOf ['s', 'e', 'q', '.', 'r', 's', 't', '.', 'c'] [] = plain (.command (.seqRst true)) := rfl
theorem lineOf_seqAdv : lineOf ['s', 'e', 'q', '.', 'a', 'd', 'v'] [] = plain (.command (.seqAdv false)) := rfl
theorem lineOf_seqAdvC : lineOf ['s', 'e', 'q', '.', 'a', 'd', 'v', '.', 'c'] [] = plain (.command (.seqAdv true)) := rfl
theorem lineOf_dspCol (x : List Char) : lineOf ['d', 's', 'p', '.', 'c', 'o', 'l'] [x] = dspColLine x := rfl
theorem lineOf_dspBlk (ops : List (List Char)) : lineOf ['d', 's', 'p', '.', 'b', 'l', 'k'] ops = dspBlkLine ops := rfl
theorem lineOf_dspRnd (x : List Char) :
    lineOf ['d', 's', 'p', '.', 'r', 'n', 'd'] [x] = withOperand intOfText (fun v => .command (.dspRnd v)) x := rfl
theorem lineOf_dspAdv (x : List Char) :
    lineOf ['d', 's', 'p', '.', 'a', 'd', 'v'] [x] = withOperand natOfText (fun v => .command (.dspAdv v)) x := rfl
theorem lineOf_raw (x : List Char) : lineOf ['.', 'c', 'w'] [x] = rawLine x := rfl
theorem lineOf_tick (x : List Char) : lineOf ['t', 'i', 'c', 'k'] [x] = withOperand natOfText .tick x := rfl
theorem lineOf_seqBounds (l u : List Char) :
    lineOf ['s', 'e', 'q', '.', 'b', 'o', 'u', 'n', 'd', 's'] [l, u] = seqBoundsLine l u := rfl
theorem lineOf_seqSetup (l u t n : List Char) :
    lineOf ['s', 'e', 'q', '.', 's', 'e', 't', 'u', 'p'] [l, u, t, n] = seqSetupLine l u t n := rfl
theorem lineOf_seqRearm :
    lineOf ['s', 'e', 'q', '.', 'r', 'e', 'a', 'r', 'm'] [] = plain (.command seqRearm) := rfl
theorem lineOf_seqPlay : lineOf ['s', 'e', 'q', '.', 'p', 'l', 'a', 'y'] [] = plain (.command seqPlay) := rfl
theorem lineOf_dspShow (rgb v : List Char) :
    lineOf ['d', 's', 'p', '.', 's', 'h', 'o', 'w'] [rgb, v] = dspShowLine rgb v := rfl

/-- A line's words, once its mnemonic and its operands give a line. -/
theorem assembleLine_of_ok {line m : List Char} {ops : List (List Char)} {l : AsmLine}
    (hs : splitLine line = (m, ops)) (hl : lineOf m ops = plain l) : assembleLine line = l.words := by
  simp only [assembleLine, parseLine, hs, hl, plain]

/-- A line whose mnemonic and operands give an error. -/
theorem assembleLine_of_error {line m : List Char} {ops : List (List Char)} {e : AsmError}
    (hs : splitLine line = (m, ops)) (hl : lineOf m ops = .error e) : assembleLine line = .error e := by
  simp only [assembleLine, parseLine, hs, hl]

/-- The words of one command: its encoding, if its operands are in range. -/
theorem words_command (i : Instr) :
    (AsmLine.command i).words = if i.wellFormed = true then .ok [encode i] else .error .outOfRange := by
  simp [AsmLine.words, wordsOf]

/-- R55's word is the encoder's, for a command whose three fields hold its OPC, FN and IMM. -/
theorem encode_eq_asmWord {i : Instr} {opc fn : Nat} {imm : Int} (h : fn < 256)
    (ho : i.opc = BitVec.ofNat 8 opc) (hf : i.fn = BitVec.ofNat 8 fn) (hi : i.imm = BitVec.ofInt 32 imm) :
    encode i = asmWord opc fn imm := by
  have h3 : i.imm.toNat = (imm % 2 ^ 32).toNat := by rw [hi, BitVec.toNat_ofInt]; rfl
  have h4 : (imm % 2 ^ 32).toNat < 2 ^ 32 := by omega
  have h5 : (0 : BitVec 16).toNat = 0 := rfl
  apply BitVec.eq_of_toNat_eq
  rw [encode]
  simp only [BitVec.toNat_append, ho, hf, h3, h5, asmWord, BitVec.toNat_ofNat]
  generalize (imm % 2 ^ 32).toNat = w at *
  rw [← Nat.shiftLeft_add_eq_or_of_lt (b := w) (by omega), ← Nat.shiftLeft_add_eq_or_of_lt (by simp),
    ← Nat.shiftLeft_add_eq_or_of_lt (by omega)]
  simp only [Nat.shiftLeft_eq]
  omega

end Sys2Proof.Machine
end

