-- ==== Sys2Proof/Laws/State.lean ====
section
/-! SUPPORT. One lemma per field for each named update of State, so that no later proof unfolds a record update. -/

namespace Sys2Proof.Machine

/-! ACT_CMD <- a2p(angle). -/

@[simp] theorem State.command_params (s : State) (angle : Int) : (s.command angle).params = s.params := rfl
@[simp] theorem State.command_input (s : State) (angle : Int) : (s.command angle).input = s.input := rfl
@[simp] theorem State.command_status (s : State) (angle : Int) : (s.command angle).status = s.status := rfl
@[simp] theorem State.command_actCmd (s : State) (angle : Int) : (s.command angle).actCmd = store 32 (a2p s.params angle) := rfl
@[simp] theorem State.command_actCur (s : State) (angle : Int) : (s.command angle).actCur = s.actCur := rfl
@[simp] theorem State.command_cfgLower (s : State) (angle : Int) : (s.command angle).cfgLower = s.cfgLower := rfl
@[simp] theorem State.command_cfgUpper (s : State) (angle : Int) : (s.command angle).cfgUpper = s.cfgUpper := rfl
@[simp] theorem State.command_cfgTicks (s : State) (angle : Int) : (s.command angle).cfgTicks = s.cfgTicks := rfl
@[simp] theorem State.command_cfgTarget (s : State) (angle : Int) : (s.command angle).cfgTarget = s.cfgTarget := rfl
@[simp] theorem State.command_seqL (s : State) (angle : Int) : (s.command angle).seqL = s.seqL := rfl
@[simp] theorem State.command_seqU (s : State) (angle : Int) : (s.command angle).seqU = s.seqU := rfl
@[simp] theorem State.command_seqT (s : State) (angle : Int) : (s.command angle).seqT = s.seqT := rfl
@[simp] theorem State.command_seqN (s : State) (angle : Int) : (s.command angle).seqN = s.seqN := rfl
@[simp] theorem State.command_seqAcc (s : State) (angle : Int) : (s.command angle).seqAcc = s.seqAcc := rfl
@[simp] theorem State.command_seqFlags (s : State) (angle : Int) : (s.command angle).seqFlags = s.seqFlags := rfl
@[simp] theorem State.command_seqCyc (s : State) (angle : Int) : (s.command angle).seqCyc = s.seqCyc := rfl
@[simp] theorem State.command_seqOut (s : State) (angle : Int) : (s.command angle).seqOut = s.seqOut := rfl
@[simp] theorem State.command_dspColor (s : State) (angle : Int) : (s.command angle).dspColor = s.dspColor := rfl
@[simp] theorem State.command_dspValue (s : State) (angle : Int) : (s.command angle).dspValue = s.dspValue := rfl
@[simp] theorem State.command_dspBlink (s : State) (angle : Int) : (s.command angle).dspBlink = s.dspBlink := rfl
@[simp] theorem State.command_dspFreq (s : State) (angle : Int) : (s.command angle).dspFreq = s.dspFreq := rfl
@[simp] theorem State.command_dspAcc (s : State) (angle : Int) : (s.command angle).dspAcc = s.dspAcc := rfl
@[simp] theorem State.command_events (s : State) (angle : Int) : (s.command angle).events = s.events := rfl

/-! A move of ACT_CUR. -/

@[simp] theorem State.movePulse_params (s : State) (delta : Int) : (s.movePulse delta).params = s.params := rfl
@[simp] theorem State.movePulse_input (s : State) (delta : Int) : (s.movePulse delta).input = s.input := rfl
@[simp] theorem State.movePulse_status (s : State) (delta : Int) : (s.movePulse delta).status = s.status := rfl
@[simp] theorem State.movePulse_actCmd (s : State) (delta : Int) : (s.movePulse delta).actCmd = s.actCmd := rfl
@[simp] theorem State.movePulse_actCur (s : State) (delta : Int) : (s.movePulse delta).actCur = store 32 (s.actCur.toInt + delta) := rfl
@[simp] theorem State.movePulse_cfgLower (s : State) (delta : Int) : (s.movePulse delta).cfgLower = s.cfgLower := rfl
@[simp] theorem State.movePulse_cfgUpper (s : State) (delta : Int) : (s.movePulse delta).cfgUpper = s.cfgUpper := rfl
@[simp] theorem State.movePulse_cfgTicks (s : State) (delta : Int) : (s.movePulse delta).cfgTicks = s.cfgTicks := rfl
@[simp] theorem State.movePulse_cfgTarget (s : State) (delta : Int) : (s.movePulse delta).cfgTarget = s.cfgTarget := rfl
@[simp] theorem State.movePulse_seqL (s : State) (delta : Int) : (s.movePulse delta).seqL = s.seqL := rfl
@[simp] theorem State.movePulse_seqU (s : State) (delta : Int) : (s.movePulse delta).seqU = s.seqU := rfl
@[simp] theorem State.movePulse_seqT (s : State) (delta : Int) : (s.movePulse delta).seqT = s.seqT := rfl
@[simp] theorem State.movePulse_seqN (s : State) (delta : Int) : (s.movePulse delta).seqN = s.seqN := rfl
@[simp] theorem State.movePulse_seqAcc (s : State) (delta : Int) : (s.movePulse delta).seqAcc = s.seqAcc := rfl
@[simp] theorem State.movePulse_seqFlags (s : State) (delta : Int) : (s.movePulse delta).seqFlags = s.seqFlags := rfl
@[simp] theorem State.movePulse_seqCyc (s : State) (delta : Int) : (s.movePulse delta).seqCyc = s.seqCyc := rfl
@[simp] theorem State.movePulse_seqOut (s : State) (delta : Int) : (s.movePulse delta).seqOut = s.seqOut := rfl
@[simp] theorem State.movePulse_dspColor (s : State) (delta : Int) : (s.movePulse delta).dspColor = s.dspColor := rfl
@[simp] theorem State.movePulse_dspValue (s : State) (delta : Int) : (s.movePulse delta).dspValue = s.dspValue := rfl
@[simp] theorem State.movePulse_dspBlink (s : State) (delta : Int) : (s.movePulse delta).dspBlink = s.dspBlink := rfl
@[simp] theorem State.movePulse_dspFreq (s : State) (delta : Int) : (s.movePulse delta).dspFreq = s.dspFreq := rfl
@[simp] theorem State.movePulse_dspAcc (s : State) (delta : Int) : (s.movePulse delta).dspAcc = s.dspAcc := rfl
@[simp] theorem State.movePulse_events (s : State) (delta : Int) : (s.movePulse delta).events = s.events ++ [.pwmWrite (store 32 (s.actCur.toInt + delta))] := rfl

/-! The illegal outcome. -/

@[simp] theorem State.takeIllegal_params (s : State) : (s.takeIllegal).params = s.params := rfl
@[simp] theorem State.takeIllegal_input (s : State) : (s.takeIllegal).input = s.input := rfl
@[simp] theorem State.takeIllegal_status (s : State) : (s.takeIllegal).status = { ill := true } := rfl
@[simp] theorem State.takeIllegal_actCmd (s : State) : (s.takeIllegal).actCmd = s.actCmd := rfl
@[simp] theorem State.takeIllegal_actCur (s : State) : (s.takeIllegal).actCur = s.actCur := rfl
@[simp] theorem State.takeIllegal_cfgLower (s : State) : (s.takeIllegal).cfgLower = s.cfgLower := rfl
@[simp] theorem State.takeIllegal_cfgUpper (s : State) : (s.takeIllegal).cfgUpper = s.cfgUpper := rfl
@[simp] theorem State.takeIllegal_cfgTicks (s : State) : (s.takeIllegal).cfgTicks = s.cfgTicks := rfl
@[simp] theorem State.takeIllegal_cfgTarget (s : State) : (s.takeIllegal).cfgTarget = s.cfgTarget := rfl
@[simp] theorem State.takeIllegal_seqL (s : State) : (s.takeIllegal).seqL = s.seqL := rfl
@[simp] theorem State.takeIllegal_seqU (s : State) : (s.takeIllegal).seqU = s.seqU := rfl
@[simp] theorem State.takeIllegal_seqT (s : State) : (s.takeIllegal).seqT = s.seqT := rfl
@[simp] theorem State.takeIllegal_seqN (s : State) : (s.takeIllegal).seqN = s.seqN := rfl
@[simp] theorem State.takeIllegal_seqAcc (s : State) : (s.takeIllegal).seqAcc = s.seqAcc := rfl
@[simp] theorem State.takeIllegal_seqFlags (s : State) : (s.takeIllegal).seqFlags = s.seqFlags := rfl
@[simp] theorem State.takeIllegal_seqCyc (s : State) : (s.takeIllegal).seqCyc = s.seqCyc := rfl
@[simp] theorem State.takeIllegal_seqOut (s : State) : (s.takeIllegal).seqOut = s.seqOut := rfl
@[simp] theorem State.takeIllegal_dspColor (s : State) : (s.takeIllegal).dspColor = s.dspColor := rfl
@[simp] theorem State.takeIllegal_dspValue (s : State) : (s.takeIllegal).dspValue = s.dspValue := rfl
@[simp] theorem State.takeIllegal_dspBlink (s : State) : (s.takeIllegal).dspBlink = s.dspBlink := rfl
@[simp] theorem State.takeIllegal_dspFreq (s : State) : (s.takeIllegal).dspFreq = s.dspFreq := rfl
@[simp] theorem State.takeIllegal_dspAcc (s : State) : (s.takeIllegal).dspAcc = s.dspAcc := rfl
@[simp] theorem State.takeIllegal_events (s : State) : (s.takeIllegal).events = s.events := rfl

/-! RST. -/

@[simp] theorem State.applyReset_params (s : State) : (s.applyReset).params = s.params := rfl
@[simp] theorem State.applyReset_input (s : State) : (s.applyReset).input = s.input := rfl
@[simp] theorem State.applyReset_status (s : State) : (s.applyReset).status = (State.resetWith s.params).status := rfl
@[simp] theorem State.applyReset_actCmd (s : State) : (s.applyReset).actCmd = (State.resetWith s.params).actCmd := rfl
@[simp] theorem State.applyReset_actCur (s : State) : (s.applyReset).actCur = (State.resetWith s.params).actCur := rfl
@[simp] theorem State.applyReset_cfgLower (s : State) : (s.applyReset).cfgLower = (State.resetWith s.params).cfgLower := rfl
@[simp] theorem State.applyReset_cfgUpper (s : State) : (s.applyReset).cfgUpper = (State.resetWith s.params).cfgUpper := rfl
@[simp] theorem State.applyReset_cfgTicks (s : State) : (s.applyReset).cfgTicks = (State.resetWith s.params).cfgTicks := rfl
@[simp] theorem State.applyReset_cfgTarget (s : State) : (s.applyReset).cfgTarget = (State.resetWith s.params).cfgTarget := rfl
@[simp] theorem State.applyReset_seqL (s : State) : (s.applyReset).seqL = (State.resetWith s.params).seqL := rfl
@[simp] theorem State.applyReset_seqU (s : State) : (s.applyReset).seqU = (State.resetWith s.params).seqU := rfl
@[simp] theorem State.applyReset_seqT (s : State) : (s.applyReset).seqT = (State.resetWith s.params).seqT := rfl
@[simp] theorem State.applyReset_seqN (s : State) : (s.applyReset).seqN = (State.resetWith s.params).seqN := rfl
@[simp] theorem State.applyReset_seqAcc (s : State) : (s.applyReset).seqAcc = (State.resetWith s.params).seqAcc := rfl
@[simp] theorem State.applyReset_seqFlags (s : State) : (s.applyReset).seqFlags = (State.resetWith s.params).seqFlags := rfl
@[simp] theorem State.applyReset_seqCyc (s : State) : (s.applyReset).seqCyc = (State.resetWith s.params).seqCyc := rfl
@[simp] theorem State.applyReset_seqOut (s : State) : (s.applyReset).seqOut = (State.resetWith s.params).seqOut := rfl
@[simp] theorem State.applyReset_dspColor (s : State) : (s.applyReset).dspColor = (State.resetWith s.params).dspColor := rfl
@[simp] theorem State.applyReset_dspValue (s : State) : (s.applyReset).dspValue = (State.resetWith s.params).dspValue := rfl
@[simp] theorem State.applyReset_dspBlink (s : State) : (s.applyReset).dspBlink = (State.resetWith s.params).dspBlink := rfl
@[simp] theorem State.applyReset_dspFreq (s : State) : (s.applyReset).dspFreq = (State.resetWith s.params).dspFreq := rfl
@[simp] theorem State.applyReset_dspAcc (s : State) : (s.applyReset).dspAcc = (State.resetWith s.params).dspAcc := rfl
@[simp] theorem State.applyReset_events (s : State) : (s.applyReset).events = s.events := rfl

/-! Presented words. -/

@[simp] theorem State.presenting_params (s : State) (cws : List CommandWord) : (s.presenting cws).params = s.params := rfl
@[simp] theorem State.presenting_input (s : State) (cws : List CommandWord) : (s.presenting cws).input = cws.map present := rfl
@[simp] theorem State.presenting_status (s : State) (cws : List CommandWord) : (s.presenting cws).status = s.status := rfl
@[simp] theorem State.presenting_actCmd (s : State) (cws : List CommandWord) : (s.presenting cws).actCmd = s.actCmd := rfl
@[simp] theorem State.presenting_actCur (s : State) (cws : List CommandWord) : (s.presenting cws).actCur = s.actCur := rfl
@[simp] theorem State.presenting_cfgLower (s : State) (cws : List CommandWord) : (s.presenting cws).cfgLower = s.cfgLower := rfl
@[simp] theorem State.presenting_cfgUpper (s : State) (cws : List CommandWord) : (s.presenting cws).cfgUpper = s.cfgUpper := rfl
@[simp] theorem State.presenting_cfgTicks (s : State) (cws : List CommandWord) : (s.presenting cws).cfgTicks = s.cfgTicks := rfl
@[simp] theorem State.presenting_cfgTarget (s : State) (cws : List CommandWord) : (s.presenting cws).cfgTarget = s.cfgTarget := rfl
@[simp] theorem State.presenting_seqL (s : State) (cws : List CommandWord) : (s.presenting cws).seqL = s.seqL := rfl
@[simp] theorem State.presenting_seqU (s : State) (cws : List CommandWord) : (s.presenting cws).seqU = s.seqU := rfl
@[simp] theorem State.presenting_seqT (s : State) (cws : List CommandWord) : (s.presenting cws).seqT = s.seqT := rfl
@[simp] theorem State.presenting_seqN (s : State) (cws : List CommandWord) : (s.presenting cws).seqN = s.seqN := rfl
@[simp] theorem State.presenting_seqAcc (s : State) (cws : List CommandWord) : (s.presenting cws).seqAcc = s.seqAcc := rfl
@[simp] theorem State.presenting_seqFlags (s : State) (cws : List CommandWord) : (s.presenting cws).seqFlags = s.seqFlags := rfl
@[simp] theorem State.presenting_seqCyc (s : State) (cws : List CommandWord) : (s.presenting cws).seqCyc = s.seqCyc := rfl
@[simp] theorem State.presenting_seqOut (s : State) (cws : List CommandWord) : (s.presenting cws).seqOut = s.seqOut := rfl
@[simp] theorem State.presenting_dspColor (s : State) (cws : List CommandWord) : (s.presenting cws).dspColor = s.dspColor := rfl
@[simp] theorem State.presenting_dspValue (s : State) (cws : List CommandWord) : (s.presenting cws).dspValue = s.dspValue := rfl
@[simp] theorem State.presenting_dspBlink (s : State) (cws : List CommandWord) : (s.presenting cws).dspBlink = s.dspBlink := rfl
@[simp] theorem State.presenting_dspFreq (s : State) (cws : List CommandWord) : (s.presenting cws).dspFreq = s.dspFreq := rfl
@[simp] theorem State.presenting_dspAcc (s : State) (cws : List CommandWord) : (s.presenting cws).dspAcc = s.dspAcc := rfl
@[simp] theorem State.presenting_events (s : State) (cws : List CommandWord) : (s.presenting cws).events = s.events := rfl

/-! Reset values (10_state.md R7). -/

@[simp] theorem State.resetWith_params (p : Params) : (State.resetWith p).params = p := rfl
@[simp] theorem State.resetWith_input (p : Params) : (State.resetWith p).input = [] := rfl
@[simp] theorem State.resetWith_status (p : Params) : (State.resetWith p).status = { ill := false } := rfl
@[simp] theorem State.resetWith_actCmd (p : Params) : (State.resetWith p).actCmd = BitVec.ofInt 32 p.pulseReset := rfl
@[simp] theorem State.resetWith_actCur (p : Params) : (State.resetWith p).actCur = BitVec.ofInt 32 p.pulseReset := rfl
@[simp] theorem State.resetWith_cfgLower (p : Params) : (State.resetWith p).cfgLower = 0 := rfl
@[simp] theorem State.resetWith_cfgUpper (p : Params) : (State.resetWith p).cfgUpper = 0 := rfl
@[simp] theorem State.resetWith_cfgTicks (p : Params) : (State.resetWith p).cfgTicks = 1 := rfl
@[simp] theorem State.resetWith_cfgTarget (p : Params) : (State.resetWith p).cfgTarget = 0 := rfl
@[simp] theorem State.resetWith_seqL (p : Params) : (State.resetWith p).seqL = 0 := rfl
@[simp] theorem State.resetWith_seqU (p : Params) : (State.resetWith p).seqU = 0 := rfl
@[simp] theorem State.resetWith_seqT (p : Params) : (State.resetWith p).seqT = 1 := rfl
@[simp] theorem State.resetWith_seqN (p : Params) : (State.resetWith p).seqN = 0 := rfl
@[simp] theorem State.resetWith_seqAcc (p : Params) : (State.resetWith p).seqAcc = 0 := rfl
@[simp] theorem State.resetWith_seqFlags (p : Params) : (State.resetWith p).seqFlags = { dir := false, done := true, valid := false } := rfl
@[simp] theorem State.resetWith_seqCyc (p : Params) : (State.resetWith p).seqCyc = 0 := rfl
@[simp] theorem State.resetWith_seqOut (p : Params) : (State.resetWith p).seqOut = 0 := rfl
@[simp] theorem State.resetWith_dspColor (p : Params) : (State.resetWith p).dspColor = 0 := rfl
@[simp] theorem State.resetWith_dspValue (p : Params) : (State.resetWith p).dspValue = 0 := rfl
@[simp] theorem State.resetWith_dspBlink (p : Params) : (State.resetWith p).dspBlink = { en := false, phase := true } := rfl
@[simp] theorem State.resetWith_dspFreq (p : Params) : (State.resetWith p).dspFreq = 1000 := rfl
@[simp] theorem State.resetWith_dspAcc (p : Params) : (State.resetWith p).dspAcc = 0 := rfl
@[simp] theorem State.resetWith_events (p : Params) : (State.resetWith p).events = [] := rfl

end Sys2Proof.Machine
end

