-- ==== Sys2Proof/Laws/Ops.lean ====
section
/-! SUPPORT. For each shared operation, what it can do, said once. -/

namespace Sys2Proof.Machine

/-- What an admissible parameter set satisfies (00_scope.md R3). -/
theorem admissible_iff (p : Params) : Admissible p ↔
    0 ≤ p.pulseLower ∧ 0 ≤ p.pulseInterval ∧ 1 ≤ p.maxAngle ∧ p.maxAngle ≤ 2 ^ 31 - 1 ∧ 0 ≤ p.minStep ∧
    p.pulseLower ≤ p.pulseReset ∧ p.pulseReset ≤ p.pulseLower + p.pulseInterval ∧ 0 < p.pwmFreqHz ∧
    p.pulseLower + p.pulseInterval + p.minStep ≤ 2 ^ 31 - 1 := by
  simp only [Admissible, admissible, Bool.and_eq_true, decide_eq_true_eq, and_assoc]

/-! Writes (00_scope.md R6): no wrap inside the register's range. -/

theorem toInt_store (w : Nat) (v : Int) : (store w v).toInt = Int.bmod v (2 ^ w) := BitVec.toInt_ofInt v

theorem toInt_store32 {v : Int} (h1 : -2 ^ 31 ≤ v) (h2 : v < 2 ^ 31) : (store 32 v).toInt = v := by
  rw [toInt_store]; exact Int.bmod_eq_of_le (by norm_num; omega) (by norm_num; omega)

theorem toInt_store96 {v : Int} (h1 : -2 ^ 95 ≤ v) (h2 : v < 2 ^ 95) : (store 96 v).toInt = v := by
  rw [toInt_store]; exact Int.bmod_eq_of_le (by norm_num; omega) (by norm_num; omega)

theorem toNat_store {w n : Nat} (h : n < 2 ^ w) : (store w (n : Int)).toNat = n := by
  simp only [store, BitVec.ofInt_natCast, BitVec.toNat_ofNat]; exact Nat.mod_eq_of_lt h

/-- The range of a signed 32-bit register. -/
theorem toInt_range32 (x : Word32) : -2 ^ 31 ≤ x.toInt ∧ x.toInt < 2 ^ 31 := by
  have h1 := BitVec.le_toInt x
  have h2 := @BitVec.toInt_lt 32 x
  norm_num at h1 h2 ⊢
  omega

/-! round_tie (00_scope.md R4). -/

theorem tieOf_cases (tie : RoundTie) (q : Int) : tieOf tie q = q ∨ tieOf tie q = q + 1 := by
  cases tie <;> simp only [tieOf] <;> split <;> simp

/-- The result of `roundTie` is within half a divisor of a. -/
theorem roundTie_close (tie : RoundTie) (a b : Int) (hb : 0 < b) :
    2 * (a - b * roundTie tie a b) ≤ b ∧ -b ≤ 2 * (a - b * roundTie tie a b) := by
  have hq1 : a - a / b * b = a % b := by have := Int.emod_add_mul_ediv a b; linarith [mul_comm b (a / b)]
  have h0 := Int.emod_nonneg a (ne_of_gt hb)
  have h1 := Int.emod_lt_of_pos a hb
  have hm : a = a / b * b + a % b := by omega
  have key : ∀ z : Int, (z = a / b ∧ 2 * (a % b) ≤ b) ∨ (z = a / b + 1 ∧ b ≤ 2 * (a % b)) →
      2 * (a - b * z) ≤ b ∧ -b ≤ 2 * (a - b * z) := by
    rintro z (⟨rfl, h⟩ | ⟨rfl, h⟩)
    · have : b * (a / b) = a / b * b := mul_comm _ _
      constructor <;> linarith
    · have : b * (a / b + 1) = a / b * b + b := by ring
      constructor <;> linarith
  apply key
  simp only [roundTie, hq1]
  split
  · left; constructor <;> omega
  · split
    · right; constructor <;> omega
    · rcases tieOf_cases tie (a / b) with h | h <;> rw [h]
      · left; constructor <;> omega
      · right; constructor <;> omega

/-- An exact multiple is its own rounding, under either tie rule. -/
theorem roundTie_mul (tie : RoundTie) (z b : Int) (hb : 0 < b) : roundTie tie (z * b) b = z := by
  simp [roundTie, Int.mul_ediv_cancel z (ne_of_gt hb), hb]

/-- Rounding is monotone in the dividend: within one quotient by the remainder, across quotients since a result is the
quotient or the next integer. -/
theorem roundTie_mono (tie : RoundTie) {a a' b : Int} (hb : 0 < b) (h : a ≤ a') :
    roundTie tie a b ≤ roundTie tie a' b := by
  have hq : a / b ≤ a' / b := Int.ediv_le_ediv hb h
  have lo : ∀ z : Int, z / b ≤ roundTie tie z b := by
    intro z; simp only [roundTie]; rcases tieOf_cases tie (z / b) with ht | ht <;> split_ifs <;> omega
  have hi : ∀ z : Int, roundTie tie z b ≤ z / b + 1 := by
    intro z; simp only [roundTie]; rcases tieOf_cases tie (z / b) with ht | ht <;> split_ifs <;> omega
  rcases eq_or_lt_of_le hq with e | hlt
  · simp only [roundTie, e]
    rcases tieOf_cases tie (a' / b) with ht | ht <;> split_ifs <;> omega
  · exact (hi a).trans (le_trans (by omega) (lo a'))

/-- The rounded position is within a half of the exact one (10_state.md R38). -/
theorem position_near (s : State) (h : 0 < s.seqT.toNat) :
    s.position - s.roundedAt s.seqAcc ≤ 1 / 2 ∧ -(1 / 2) ≤ s.position - s.roundedAt s.seqAcc := by
  have hT : (0 : Rat) < (s.seqT.toNat : Rat) := by exact_mod_cast h
  obtain ⟨h1, h2⟩ := roundTie_close s.params.roundTie s.seqAcc.toInt (s.seqT.toNat : Int) (by omega)
  have e : s.position - s.roundedAt s.seqAcc =
      (s.seqAcc.toInt - s.seqT.toNat * s.roundedAt s.seqAcc : Rat) / s.seqT.toNat := by
    unfold State.position; field_simp
  have h1' : 2 * ((s.seqAcc.toInt : Rat) - s.seqT.toNat * s.roundedAt s.seqAcc) ≤ s.seqT.toNat := by exact_mod_cast h1
  have h2' : -(s.seqT.toNat : Rat) ≤ 2 * ((s.seqAcc.toInt : Rat) - s.seqT.toNat * s.roundedAt s.seqAcc) := by exact_mod_cast h2
  rw [e]
  exact ⟨(div_le_iff₀ hT).2 (by linarith), (le_div_iff₀ hT).2 (by linarith)⟩

/-! The actuator's functions (41_actuator.md R57, R60). -/

theorem a2p_cases (p : Params) (angle : Int) :
    (angle ≤ 0 ∧ a2p p angle = p.pulseLower) ∨
    (0 < angle ∧ p.maxAngle ≤ angle ∧ a2p p angle = p.pulseLower + p.pulseInterval) ∨
    (0 < angle ∧ angle < p.maxAngle ∧ a2p p angle = p.pulseLower + p.pulseInterval * angle / p.maxAngle) := by
  unfold a2p
  split
  · simp_all
  · split <;> simp_all

theorem atLeastMinStep_cases (m delta : Int) :
    ((delta.natAbs : Int) < m ∧ atLeastMinStep m delta = delta.sign * m) ∨
    (m ≤ (delta.natAbs : Int) ∧ atLeastMinStep m delta = delta) := by
  unfold atLeastMinStep
  split
  · left; simp_all
  · right; simp_all

theorem commandIf_cases (s : State) (c : Bool) (angle : Int) :
    (c = true ∧ s.commandIf c angle = s.command angle) ∨ (c = false ∧ s.commandIf c angle = s) := by
  cases c <;> simp [State.commandIf]

/-! Taking the next input (60_exceptions.md R84, R93). -/

theorem action_cases (x : PortSample) :
    (x.rst = true ∧ x.action = .reset) ∨ (x.rst = false ∧ x.cmdValid = true ∧ x.action = .command x.cmd) ∨
    (x.rst = false ∧ x.cmdValid = false ∧ x.action = .idle) := by
  rcases x with ⟨r, v, c⟩
  cases r <;> cases v <;> simp [PortSample.action]

theorem fetch_cases (s : State) :
    (s.input = [] ∧ s.fetch = (.idle, s)) ∨
    ∃ x rest, s.input = x :: rest ∧ s.fetch = (x.action, { s with input := rest }) := by
  unfold State.fetch
  split <;> simp_all

end Sys2Proof.Machine
end

