-- ==== Sys2Proof/Laws/Exec.lean ====
section
/-! SUPPORT. What each command and each step can do, said once: the branches of a meaning with the guard of each. -/

namespace Sys2Proof.Machine

theorem execActAdv_cases (s : State) :
    ((s.residual = 0 ∨ pdelta s.params.roundTie s.residual = 0) ∧ execActAdv s = .next s) ∨
    (s.residual ≠ 0 ∧ pdelta s.params.roundTie s.residual ≠ 0 ∧
      execActAdv s =
        .next (s.movePulse (atLeastMinStep s.params.minStep (pdelta s.params.roundTie s.residual)))) := by
  simp only [execActAdv, State.residual]
  split
  · left; simp_all
  · split <;> simp_all

theorem execSeqCfg_cases (sel : CfgSel) (imm : Word32) (s : State) :
    (sel = .lower ∧ execSeqCfg sel imm s = .next { s with cfgLower := store 32 (sext32 imm) }) ∨
    (sel = .upper ∧ execSeqCfg sel imm s = .next { s with cfgUpper := store 32 (sext32 imm) }) ∨
    (sel = .ticks ∧ imm ≠ 0 ∧ execSeqCfg sel imm s = .next { s with cfgTicks := store 32 (zext32 imm) }) ∨
    (sel = .target ∧ execSeqCfg sel imm s = .next { s with cfgTarget := store 32 (zext32 imm) }) ∨
    ((sel = .ticks ∧ imm = 0 ∨ ∃ k, sel = .unknown k) ∧ execSeqCfg sel imm s = .next s) := by
  cases sel with
  | ticks => by_cases h : imm = 0#32 <;> simp [execSeqCfg, h]
  | _ => simp [execSeqCfg]

/-- SEQ.ADV without the coupling, and the coupling as one write after it. -/
theorem execSeqAdv_cases (c : Bool) (s : State) :
    (s.seqFlags.done = true ∧ execSeqAdv c s = .next { s with seqFlags := s.seqFlags.none }) ∨
    (s.seqFlags.done = false ∧ ∃ t : State,
      execSeqAdv false s = .next t ∧ execSeqAdv c s = .next (t.commandIf c t.seqOut.toInt) ∧
      t.seqAcc = s.nextAcc ∧ t.seqOut = store 32 (s.roundedAt s.nextAcc) ∧ t.seqFlags.valid = true ∧
      t.params = s.params ∧ t.actCmd = s.actCmd ∧ t.actCur = s.actCur ∧ t.events = s.events) := by
  unfold execSeqAdv
  cases h : s.seqFlags.done
  · right
    refine ⟨rfl, _, rfl, rfl, rfl, rfl, rfl, rfl, rfl, rfl, rfl⟩
  · left; simp

theorem execDspBlk_cases (en : Bool) (mhz : Nat) (s : State) :
    (en = false ∧ execDspBlk en mhz s = .next { s with dspBlink := blinkOff, dspAcc := 0 }) ∨
    (en = true ∧ mhz = 0 ∧ execDspBlk en mhz s = .next s) ∨
    (en = true ∧ mhz ≠ 0 ∧ execDspBlk en mhz s = .next { s with
      dspBlink := s.dspBlink.on, dspAcc := if s.dspBlink.en then s.dspAcc else 0, dspFreq := store 32 mhz }) := by
  unfold execDspBlk
  cases en
  · simp
  · by_cases h : mhz = 0 <;> simp [h]

/-- What a step of a machine with an admissible parameter set can do. -/
theorem step_cases {s t : State} (h : step s = .next t) :
    Admissible s.params ∧
    ((s.input = [] ∧ t = s) ∨
     ∃ x rest, s.input = x :: rest ∧
       ((x.rst = true ∧ t = State.applyReset { s with input := rest }) ∨
        (x.rst = false ∧ x.cmdValid = false ∧ t = { s with input := rest }) ∨
        (x.rst = false ∧ x.cmdValid = true ∧
          ((∃ i, decode x.cmd = .ok i ∧ exec i { s with input := rest } = .next t) ∨
           (∃ e, decode x.cmd = .error e ∧ t = State.takeIllegal { s with input := rest }))))) := by
  unfold step at h
  split at h
  · rename_i hp
    refine ⟨hp, ?_⟩
    rcases fetch_cases s with ⟨hi, hf⟩ | ⟨x, rest, hi, hf⟩
    · left; rw [hf] at h; simp_all
    · right
      refine ⟨x, rest, hi, ?_⟩
      rw [hf] at h
      rcases action_cases x with ⟨h1, ha⟩ | ⟨h1, h2, ha⟩ | ⟨h1, h2, ha⟩
      · left; rw [ha] at h; simp_all
      · right; right
        rw [ha] at h
        refine ⟨h1, h2, ?_⟩
        cases hd : decode x.cmd with
        | ok i => simp [hd] at h; exact .inl ⟨i, rfl, h⟩
        | error e => simp [hd] at h; exact .inr ⟨e, rfl, h.symm⟩
      · right; left; rw [ha] at h; simp_all
  · simp at h

end Sys2Proof.Machine
end

