-- ==== Sys2Proof/Laws/PerInstr.lean ====
section
/-! SUPPORT. The family EncodeFields: the word of a command holds its opcode, function bits and operand in their fields, and
RSV = 0 (30_encoding.md R48, R50). -/

namespace Sys2Proof.Laws

/-- The fields of a command's word (30_encoding.md R48). -/
def EncodeFields.Statement (i : Instr) : Prop :=
  opcField (encode i) = i.opc ∧ fnField (encode i) = i.fn ∧ rsvField (encode i) = 0 ∧ immField (encode i) = i.imm

theorem EncodeFields.all (i : Instr) : EncodeFields.Statement i :=
  ⟨opcField_encode i, fnField_encode i, rsvField_encode i, immField_encode i⟩

theorem EncodeFields.nop : EncodeFields.Statement .nop := EncodeFields.all _
theorem EncodeFields.actTgt (angle : Int) : EncodeFields.Statement (.actTgt angle) := EncodeFields.all _
theorem EncodeFields.actAdv : EncodeFields.Statement .actAdv := EncodeFields.all _
theorem EncodeFields.seqCfg (sel : CfgSel) (imm : Word32) : EncodeFields.Statement (.seqCfg sel imm) := EncodeFields.all _
theorem EncodeFields.seqRst (c : Bool) : EncodeFields.Statement (.seqRst c) := EncodeFields.all _
theorem EncodeFields.seqAdv (c : Bool) : EncodeFields.Statement (.seqAdv c) := EncodeFields.all _
theorem EncodeFields.dspCol (rgb : Word32) : EncodeFields.Statement (.dspCol rgb) := EncodeFields.all _
theorem EncodeFields.dspBlk (en : Bool) (mhz : Nat) : EncodeFields.Statement (.dspBlk en mhz) := EncodeFields.all _
theorem EncodeFields.dspRnd (v : Int) : EncodeFields.Statement (.dspRnd v) := EncodeFields.all _
theorem EncodeFields.dspAdv (dt : Nat) : EncodeFields.Statement (.dspAdv dt) := EncodeFields.all _

end Sys2Proof.Laws
end

