-- ==== Sys2Proof/Tests/Slice0.lean ====
section
/-! SUPPORT. Own tests: words and results from 95_test_vectors.md and the rules' examples, ill-formed terms, and for every
statement with hypotheses a state and operands that meet them. The parameter set is the spec's test set V0. -/

namespace Sys2Proof.Tests

open Sys2Proof.Machine

/-- The block right after reset under V0. -/
def start : State := State.resetWith Params.v0

/-- Reset, with ACT_CMD, ACT_CUR and MIN_STEP chosen. -/
def actState (cmd cur minStep : Int) : State :=
  { State.resetWith { Params.v0 with minStep := minStep } with actCmd := store 32 cmd, actCur := store 32 cur }

/-- Reset, with the pending configuration chosen. -/
def cfgState (l u : Int) (t n : Nat) : State :=
  { start with cfgLower := store 32 l, cfgUpper := store 32 u, cfgTicks := store 32 t, cfgTarget := store 32 n }

/-- Reset, with the blink registers chosen. -/
def blinkState (en phase : Bool) (freq acc : Nat) : State :=
  { start with dspBlink := ⟨en, phase⟩, dspFreq := store 32 freq, dspAcc := store 20 acc }

/-- A field of the next state, if there is one. -/
def after {α : Type} (o : Host.Outcome State Fault Refusal) (f : State → α) : Option α :=
  match o with
  | .next s => some (f s)
  | .fault _ => none
  | .refused _ => none

/-! Ill-formed terms (30_encoding.md R49, R55). -/

theorem test_wf_angle_high : (Instr.actTgt (2 ^ 31)).wellFormed = false := by decide
theorem test_wf_angle_low : (Instr.actTgt (-2 ^ 31 - 1)).wellFormed = false := by decide
theorem test_wf_sel_named : (Instr.seqCfg (.unknown 3) 0).wellFormed = false := by decide
theorem test_wf_sel_high : (Instr.seqCfg (.unknown 8) 0).wellFormed = false := by decide
theorem test_wf_freq : (Instr.dspBlk true (2 ^ 32)).wellFormed = false := by decide
theorem test_wf_value : (Instr.dspRnd (2 ^ 31)).wellFormed = false := by decide
theorem test_wf_dt : (Instr.dspAdv (2 ^ 32)).wellFormed = false := by decide
theorem test_wf_extremes : (Instr.actTgt (-2 ^ 31)).wellFormed = true ∧ (Instr.dspAdv (2 ^ 32 - 1)).wellFormed = true := by
  decide

/-! Words written out from 30_encoding.md R50 (95_test_vectors.md L2, L3). -/

theorem test_decode_nop : decode 0x0000000000000000 = .ok .nop := by decide
theorem test_decode_actTgt : decode 0x100000000000005A = .ok (.actTgt 90) := by decide
theorem test_decode_actTgt_negative : decode 0x10000000FFFFFFFF = .ok (.actTgt (-1)) := by decide
theorem test_decode_actAdv : decode 0x1100000000000000 = .ok .actAdv := by decide
theorem test_decode_seqCfg_lower : decode 0x2000000000000000 = .ok (.seqCfg .lower 0) := by decide
theorem test_decode_seqCfg_upper : decode 0x20010000000000B4 = .ok (.seqCfg .upper 180) := by decide
theorem test_decode_seqCfg_ticks : decode 0x2002000000000004 = .ok (.seqCfg .ticks 4) := by decide
theorem test_decode_seqCfg_target : decode 0x2003000000000001 = .ok (.seqCfg .target 1) := by decide
theorem test_decode_seqCfg_unknown : decode 0x20060000DEADBEEF = .ok (.seqCfg (.unknown 6) 0xDEADBEEF) := by decide
theorem test_decode_seqRst : decode 0x2100000000000000 = .ok (.seqRst false) := by decide
theorem test_decode_seqRst_coupled : decode 0x2101000000000000 = .ok (.seqRst true) := by decide
theorem test_decode_seqAdv : decode 0x2200000000000000 = .ok (.seqAdv false) := by decide
theorem test_decode_seqAdv_coupled : decode 0x2201000000000000 = .ok (.seqAdv true) := by decide
theorem test_decode_dspCol : decode 0x3000000000123456 = .ok (.dspCol 0x123456) := by decide
theorem test_decode_dspBlk_on : decode 0x31010000000007D0 = .ok (.dspBlk true 2000) := by decide
theorem test_decode_dspBlk_off : decode 0x3100000000003039 = .ok (.dspBlk false 12345) := by decide
theorem test_decode_dspRnd : decode 0x32000000000000A5 = .ok (.dspRnd 0xA5) := by decide
theorem test_decode_dspRnd_lowest : decode 0x3200000080000000 = .ok (.dspRnd (-2147483648)) := by decide
theorem test_decode_dspAdv : decode 0x330000000000012C = .ok (.dspAdv 300) := by decide
theorem test_decode_illegal : decode 0x0001000000000000 = .error .functionBits ∧
    decode 0x1100000000000001 = .error .operandBits ∧ decode 0x3200800000000000 = .error .reservedBits ∧
    decode 0xFFFFFFFFFFFFFFFF = .error .reservedBits ∧ decode 0x3400000000000000 = .error .unassignedOpcode := by decide
theorem test_encode_act : encode (.actTgt (-1)) = 0x10000000FFFFFFFF ∧ encode .actAdv = 0x1100000000000000 := by decide
theorem test_encode_seq : encode (.seqCfg .upper 270) = 0x200100000000010E ∧ encode (.seqAdv true) = 0x2201000000000000 := by
  decide
theorem test_encode_dsp : encode (.dspBlk true 1000) = 0x31010000000003E8 ∧ encode (.dspRnd (-1)) = 0x32000000FFFFFFFF := by
  decide
theorem test_tableWord : decodeTableWord 64 0x2101000000000000 = some (.seqRst true) := by decide
theorem test_tableWord_illegal : decodeTableWord 64 0x7F00000000000000 = none := by decide
theorem test_link : bytesOfWord 0x20060000DEADBEEF = [0xEF, 0xBE, 0xAD, 0xDE, 0x00, 0x00, 0x06, 0x20] ∧
    wordOfBytes [0xEF, 0xBE, 0xAD, 0xDE, 0x00, 0x00, 0x06, 0x20] = some 0x20060000DEADBEEF := by decide

/-! One step of each command. -/

-- CTL1.
theorem test_nop : after (step (start.withFetchWord 64 0)) (fun s => decide (s = start)) = some true := by decide
-- ACT52, ACT53.
theorem test_actTgt : after (step (start.withFetchWord 64 0x100000000000005A)) (·.actCmd) = some 2000 := by decide
theorem test_actTgt_negative : after (exec (.actTgt (-1)) start) (·.actCmd) = some 1000 := by decide
-- ACT41 (the clamp in the negative direction), ACT46 (overshoot).
theorem test_actAdv_clamp : after (exec .actAdv (actState 1983 2000 5)) (fun s => (s.actCur, s.events)) =
    some (1995, [.pwmWrite 1995]) := by decide
theorem test_actAdv_overshoot : after (exec .actAdv (actState 2000 1983 40)) (·.actCur) = some 2023 := by decide
-- R65, example; DEC18.
theorem test_seqCfg : after (step (start.withFetchWord 64 0x20010000000000B4)) (fun s => (s.cfgUpper, s.seqU)) =
    some (180, 0) := by decide
theorem test_seqCfg_zero_ticks : after (exec (.seqCfg .ticks 0) start) (fun s => (s.cfgTicks, s.status.ill)) =
    some (1, false) := by decide
-- SEQ10, first return of SEQ.RST; SEQ15.
theorem test_seqRst : after (exec (.seqRst false) (cfgState (-90) 90 6 1)) (fun s => (s.seqAcc.toInt, s.seqOut.toInt)) =
    some (-540, -90) := by decide
theorem test_seqRst_coupled : after (exec (.seqRst true) (cfgState 0 180 4 1)) (fun s => (s.actCmd, s.seqFlags)) =
    some (1000, ⟨false, false, true⟩) := by decide
-- SEQ15, second step; SEQ16.
theorem test_seqAdv_coupled :
    after (execAll [.seqRst true, .seqAdv true] (cfgState 0 180 4 1)) (fun s => (s.seqAcc, s.seqOut, s.actCmd)) =
      some (360, 90, 2000) := by decide
theorem test_seqAdv_none : after (exec (.seqAdv true) start) (fun s => (s.seqFlags.valid, s.actCmd)) =
    some (false, 1000) := by decide
-- DSP1, DSP7.
theorem test_dspCol : after (step (start.withFetchWord 64 0x3000000000123456)) (·.dspColor) = some 0x123456 := by decide
theorem test_dspCol_invalid : after (exec (.dspCol 0xFF000000) { start with dspColor := 0xFFFFFF }) (·.dspColor) =
    some 0xFFFFFF := by decide
-- DSP10, third command; DSP16, third command.
theorem test_dspBlk_keeps_phase :
    after (exec (.dspBlk true 500) (blinkState true true 1000 600000)) (fun s => (s.dspBlink, s.dspFreq, s.dspAcc)) =
      some (⟨true, true⟩, 500, 600000) := by decide
theorem test_dspBlk_off :
    after (exec (.dspBlk false 0) (blinkState true false 1000 500000)) (fun s => (s.dspBlink, s.dspFreq, s.dspAcc)) =
      some (⟨false, true⟩, 1000, 0) := by decide
-- DSP5, L1.8.
theorem test_dspRnd : after (step (start.withFetchWord 64 0x3200000000000080)) (·.dspValue) = some 128 := by decide
theorem test_dspRnd_range : after (exec (.dspRnd 256) { start with dspValue := 0xA5 }) (·.dspValue) = some 0xA5 := by
  decide
-- R74, example; DSP14.
theorem test_dspAdv : after (exec (.dspAdv 300) (blinkState true true 2000 600000)) (fun s => (s.dspBlink.phase, s.dspAcc)) =
    some (false, 200000) := by decide
theorem test_dspAdv_longest :
    after (exec (.dspAdv 0xFFFFFFFF) (blinkState true true 0xFFFFFFFF 0)) (fun s => (s.dspBlink.phase, s.dspAcc)) =
      some (false, 617025) := by decide
-- DEC16: an illegal word; R95: RST with a word on the port.
theorem test_illegal : after (step (start.withFetchWord 64 0xFFFFFFFFFFFFFFFF)) (fun s => decide (s = start.takeIllegal)) =
    some true := by decide
theorem test_reset : after (step { actState 2000 1900 5 with input := [⟨true, true, 0x100000000000005A⟩] })
    (fun s => (s.actCmd, s.input)) = some (1000, []) := by decide

/-! Functions of the rules. -/

-- ACT4, ACT7, ACT8 under V0.
theorem test_a2p : a2p Params.v0 1 = 1011 ∧ a2p Params.v0 120 = 2333 ∧ a2p Params.v0 179 = 2988 := by decide
-- ACT23, ACT31, ACT33.
theorem test_pdelta : pdelta .halfEven (-17) = -1 ∧ pdelta .halfAway (-150) = -5 ∧ pdelta .halfEven 350 = 10 := by decide
-- P3 after its second command: lights 0, 2, 5 and 7.
theorem test_led : (List.finRange 8).map (State.led { start with dspColor := 0x00FF00, dspValue := 0xA5 }) =
    [0x00FF00, 0, 0x00FF00, 0, 0, 0x00FF00, 0, 0x00FF00] := by decide
-- R37: SEQ_ACC fills all 96 bits; a signed 32-bit register is zero-extended.
theorem test_observe : State.observe { start with seqAcc := store 96 (-1), seqOut := store 32 (-1) } 0x14 = -1 ∧
    State.observe { start with seqAcc := store 96 (-1), seqOut := store 32 (-1) } 0x17 = 0xFFFFFFFF := by decide
-- R56 and R55: text lines.
theorem test_asm_target : assembleLine ['a', 'c', 't', '.', 't', 'g', 't', ' ', ' ', '-', '1', ' ', ';', 'x'] =
    .ok [0x10000000FFFFFFFF] := by decide
theorem test_asm_cfg : assembleLine ['s', 'e', 'q', '.', 'c', 'f', 'g', ' ', 's', 'e', 'l', '5', ',', ' ', '7'] =
    .ok [0x2005000000000007] := by decide
theorem test_asm_tick : assembleLine ['t', 'i', 'c', 'k', ' ', '0', 'x', '1', '0'] =
    .ok [0x1100000000000000, 0x3300000000000010] := by decide
theorem test_asm_range : assembleLine ['d', 's', 'p', '.', 'a', 'd', 'v', ' ', '-', '1'] = .error .syntaxError ∧
    (AsmLine.command (.dspAdv (2 ^ 32))).words = .error .outOfRange := by decide

/-! Witnesses: for each statement with hypotheses, a state and operands that meet them. -/

/-- A presented word. -/
def oneWord (cw : CommandWord) : State := { start with input := [present cw] }

theorem witness_admissible : Admissible start.params := by decide
theorem witness_inv : start.Inv := by constructor <;> decide
theorem witness_inv_act_16 : (actState 2016 2000 5).Inv ∧ (actState 2016 2000 5).residual.natAbs = 16 := by
  exact ⟨by constructor <;> decide, by decide⟩
theorem witness_inv_act_17 : (actState 2017 2000 5).Inv ∧ (actState 2017 2000 5).residual.natAbs = 17 ∧
    Admissible (actState 2017 2000 5).params := by
  exact ⟨by constructor <;> decide, by decide, by decide⟩
theorem test_witness_DecodeEncodeRoundTrip : (Instr.dspRnd (-2 ^ 31)).wellFormed = true ∧
    (Instr.seqCfg (.unknown 7) 0xFFFFFFFF).wellFormed = true := by decide
theorem test_witness_EncodeDecodeRoundTrip : decode 0x2007000000000000 = .ok (.seqCfg (.unknown 7) 0) ∧
    decode 0x33000000FFFFFFFF = .ok (.dspAdv 0xFFFFFFFF) := by decide
theorem test_witness_TableRowsAreTheCommands :
    (⟨"SEQ.RST", 0x2100000000000000, 0xFFFEFFFFFFFFFFFF⟩ : OpcodeRow) ∈ opcodeTable ∧
    OpcodeRow.covers ⟨"SEQ.RST", 0x2100000000000000, 0xFFFEFFFFFFFFFFFF⟩ 0x2101000000000000 = true := by decide
theorem test_witness_LegalWords : Admissible (oneWord 1).params ∧ (oneWord 1).input = present 1 :: [] ∧
    (present 1).rst = false ∧ (present 1).cmdValid = true ∧ ¬ ∃ i, decode (present 1).cmd = .ok i := by
  refine ⟨by decide, rfl, rfl, rfl, ?_⟩
  rintro ⟨i, hi⟩
  have h : decode (present 1).cmd = .error .operandBits := by decide
  rw [h] at hi
  cases hi
theorem test_witness_SilentRejections : (4 ≤ 4 ∧ 4 ≤ 7) ∧ (4 ≤ 7 ∧ 7 ≤ 7) ∧
    (0x01000000 : Word32).extractLsb' 24 8 ≠ 0 ∧ (-2 ^ 31 ≤ (-1 : Int) ∧ (-1 : Int) < 0) ∧
    ((256 : Int) < 2 ^ 31 ∧ (255 : Int) < 256) := by decide
theorem test_witness_LinkIsLittleEndian : wordOfBytes [1, 2, 3, 4, 5, 6, 7, 8] = some 0x0807060504030201 ∧
    ([1, 2, 3, 4, 5, 6, 7] : List Byte).length ≠ 8 := by decide
theorem test_witness_AssemblerEmitsTheWord : (Instr.dspBlk true (2 ^ 32 - 1)).wellFormed = true ∧
    (Instr.dspBlk true (2 ^ 32)).wellFormed = false := by decide
/-- A line of each kind: plain, a bound at the edge of its range, a negative colour, a raw word past 64 bits. -/
theorem test_witness_AssemblerEmitsTheWord_lines :
    (⟨['d', 's', 'p', '.', 'b', 'l', 'k'], [['o', 'f', 'f']], 0x31, 0⟩ : AsmForm) ∈ plainForms ∧
    splitLine ['d', 's', 'p', '.', 'b', 'l', 'k', ' ', 'o', 'f', 'f'] = (['d', 's', 'p', '.', 'b', 'l', 'k'], [['o', 'f', 'f']]) ∧
    (⟨['s', 'e', 'q', '.', 'c', 'f', 'g'], [['l', 'o', 'w', 'e', 'r']], 0x20, 0⟩ : AsmForm) ∈ signedForms ∧
    splitLine ['s', 'e', 'q', '.', 'c', 'f', 'g', ' ', 'l', 'o', 'w', 'e', 'r', ',', ' ', '-', '2', '1', '4', '7', '4', '8', '3', '6', '4', '8'] =
      (['s', 'e', 'q', '.', 'c', 'f', 'g'], [['l', 'o', 'w', 'e', 'r'], ['-', '2', '1', '4', '7', '4', '8', '3', '6', '4', '8']]) ∧
    intOfText ['-', '2', '1', '4', '7', '4', '8', '3', '6', '4', '8'] = some (-2 ^ 31) ∧
    (⟨['d', 's', 'p', '.', 'c', 'o', 'l'], [], 0x30, 0⟩ : AsmForm) ∈ unsignedForms ∧
    splitLine ['d', 's', 'p', '.', 'c', 'o', 'l', ' ', '-', '1'] = (['d', 's', 'p', '.', 'c', 'o', 'l'], [['-', '1']]) ∧ natOfText ['-', '1'] = none ∧
    splitLine ['.', 'c', 'w', ' ', '0', 'x', '1', '0', '0', '0', '0', '0', '0', '0', '0', '0', '0', '0', '0', '0', '0', '0', '0'] =
      (['.', 'c', 'w'], [['0', 'x', '1', '0', '0', '0', '0', '0', '0', '0', '0', '0', '0', '0', '0', '0', '0', '0', '0']]) ∧
    natOfText ['0', 'x', '1', '0', '0', '0', '0', '0', '0', '0', '0', '0', '0', '0', '0', '0', '0', '0', '0'] = some (2 ^ 64) := by
  decide
theorem test_witness_PseudoInstructionsExpand : inSigned32 (-2 ^ 31) = true ∧ inSigned32 (2 ^ 31 - 1) = true ∧
    2 ^ 32 - 1 < 2 ^ 32 ∧ inSigned32 (2 ^ 31) = false := by decide
theorem test_witness_PseudoInstructionsExpand_lines :
    splitLine ['t', 'i', 'c', 'k', ' ', '1', '0'] = (['t', 'i', 'c', 'k'], [['1', '0']]) ∧ natOfText ['1', '0'] = some 10 ∧
    splitLine ['s', 'e', 'q', '.', 'b', 'o', 'u', 'n', 'd', 's', ' ', '-', '9', '0', ',', ' ', '9', '0'] = (['s', 'e', 'q', '.', 'b', 'o', 'u', 'n', 'd', 's'], [['-', '9', '0'], ['9', '0']]) ∧ intOfText ['-', '9', '0'] = some (-90) ∧
    splitLine ['s', 'e', 'q', '.', 's', 'e', 't', 'u', 'p', ' ', '0', ',', ' ', '9', ',', ' ', '4', ',', ' ', '1'] = (['s', 'e', 'q', '.', 's', 'e', 't', 'u', 'p'], [['0'], ['9'], ['4'], ['1']]) ∧
    splitLine ['d', 's', 'p', '.', 's', 'h', 'o', 'w', ' ', '0', ',', ' ', '9'] = (['d', 's', 'p', '.', 's', 'h', 'o', 'w'], [['0'], ['9']]) ∧
    splitLine ['s', 'e', 'q', '.', 'r', 'e', 'a', 'r', 'm'] = (['s', 'e', 'q', '.', 'r', 'e', 'a', 'r', 'm'], []) ∧ splitLine ['s', 'e', 'q', '.', 'p', 'l', 'a', 'y'] = (['s', 'e', 'q', '.', 'p', 'l', 'a', 'y'], []) ∧
    splitLine ['d', 's', 'p', '.', 'b', 'l', 'k', ' ', 'o', 'n'] = (['d', 's', 'p', '.', 'b', 'l', 'k'], [['o', 'n']]) := by
  decide
theorem test_witness_StepRunsDecodedInstruction : Admissible (oneWord 0x1100000000000000).params ∧
    (oneWord 0x1100000000000000).input = present 0x1100000000000000 :: [] ∧ (present 0x1100000000000000).rst = false ∧
    (present 0x1100000000000000).cmdValid = true ∧ decode (present 0x1100000000000000).cmd = .ok .actAdv := by decide
theorem test_witness_IllegalWordSetsIll : Admissible (oneWord 1).params ∧ (oneWord 1).input = present 1 :: [] ∧
    (present 1).rst = false ∧ (present 1).cmdValid = true ∧ decode (present 1).cmd = .error .operandBits := by decide
theorem test_witness_ResetInput : Admissible start.params ∧
    (State.mk Params.v0 [⟨true, true, 1⟩] ⟨true⟩ 1 2 3 4 5 6 7 8 9 10 11 ⟨true, false, true⟩ 12 13 14 15 ⟨true, false⟩ 16 17
      [.pwmWrite 2]).input = ⟨true, true, 1⟩ :: [] := by decide
theorem test_witness_IdleStepHoldsState : start.input = [] ∧
    (State.input { start with input := [⟨false, false, 1⟩] }) = ⟨false, false, 1⟩ :: [] := by decide
theorem test_witness_StepTotalOrRefused : Admissible start.params ∧ ¬ Admissible { Params.v0 with minStep := -1 } := by
  decide
theorem test_witness_ConfigureChecksParameters :
    configure { Params.v0 with minStep := 2 ^ 31 - 1 - 3000 } =
      .next (State.resetWith { Params.v0 with minStep := 2 ^ 31 - 1 - 3000 }) ∧
    configure { Params.v0 with minStep := 2 ^ 31 - 3000 } = .refused .inadmissibleParameters := by
  exact ⟨if_pos (by decide), if_neg (by decide)⟩
theorem test_witness_OnlyResetClearsIll :
    step { start with status := ⟨true⟩, input := [⟨true, false, 0⟩] } = .next start ∧ start.status.ill = false := by
  exact ⟨rfl, rfl⟩
theorem test_witness_PresentedWordsRunInOrder : Admissible start.params ∧
    ∀ i ∈ ([.actTgt 90, .actAdv] : List Instr), i.wellFormed = true := by decide
theorem test_witness_InvHoldsAtReset : Admissible Params.v0 := by decide
theorem test_witness_StepKeepsInv : State.Inv (oneWord 0) ∧ step (oneWord 0) = .next start := by
  exact ⟨by constructor <;> decide, rfl⟩
theorem test_witness_RoundTieIsNearest : (0 : Int) < 100 ∧ 2 * ((-450 : Int) - -5 * 100) = 100 ∧ (-450 : Int) / 100 = -5 := by
  decide
theorem test_witness_WritesWrapToTheWidth : 0 < 32 ∧ (store 32 (2 ^ 31)).toInt = -2 ^ 31 := by decide
theorem test_witness_AngleToPulseMap : Admissible Params.v0 ∧ (0 : Int) ≤ 0 ∧ Params.v0.maxAngle ≤ 180 ∧
    (0 : Int) < 1 ∧ 179 < Params.v0.maxAngle := by decide
theorem test_witness_ProportionalDelta : (50 : Int).natAbs % 100 = 50 ∧ (-150 : Int).natAbs % 100 = 50 := by decide
theorem test_witness_NopChangesNothing : (1 : CommandWord).extractLsb' 56 8 = 0 ∧ (1 : CommandWord) ≠ 0 ∧
    (0 : CommandWord).extractLsb' 56 8 = 0 := by decide
theorem test_witness_ActTgtSetsCommand : Admissible start.params ∧ start.params.maxAngle ≤ 180 ∧
    start.actCmd = BitVec.ofInt 32 (a2p start.params 0) ∧ start.actCmd = start.actCur ∧
    start.params.pulseLower = 1000 ∧ start.params.pulseInterval = 2000 ∧ start.params.maxAngle = 180 := by decide
theorem test_witness_ActAdvMovesPulse : (actState 2016 2000 5).residual.natAbs ≤ 16 ∧
    17 ≤ (actState 2017 2000 5).residual.natAbs ∧
    ((pdelta .halfEven (actState 2017 2000 5).residual).natAbs : Int) < (actState 2017 2000 5).params.minStep ∧
    (actState 2100 2000 3).params.minStep ≤ (pdelta .halfEven (actState 2100 2000 3).residual).natAbs := by decide
theorem test_witness_ActAdvProgress : (actState 2017 2000 17).Inv ∧ Admissible (actState 2017 2000 17).params ∧
    (actState 2017 2000 17).params.minStep ≤ (actState 2017 2000 17).residual.natAbs ∧
    (actState 2017 2000 18).residual.natAbs < (actState 2017 2000 18).params.minStep := by
  exact ⟨by constructor <;> decide, by decide, by decide, by decide⟩
theorem test_witness_ActAdvSettlesOrOscillates : (actState 2000 1983 33).Inv ∧ Admissible (actState 2000 1983 33).params ∧
    (actState 2000 1983 33).params.minStep ≤ 33 ∧ (actState 2000 1983 34).Inv ∧
    Admissible (actState 2000 1983 34).params ∧ 34 ≤ (actState 2000 1983 34).params.minStep ∧
    17 ≤ (actState 2000 1983 34).residual.natAbs ∧
    ((actState 2000 1983 34).residual.natAbs : Int) ≤ (actState 2000 1983 34).params.minStep - 17 := by
  exact ⟨by constructor <;> decide, by decide, by decide, by constructor <;> decide, by decide, by decide, by decide, by decide⟩
theorem test_witness_SeqCfgWritesPending : (1 : Word32) ≠ 0 := by decide
theorem test_witness_SeqAdvNextPosition : start.seqFlags.done = true ∧
    after (exec (.seqRst false) start) (·.seqFlags.done) = some false := by decide
/-- For SweepLandsOnBothBounds: R104's form, and a walk of R68's condition with SEQ_U below SEQ_L (R69, example). -/
theorem test_witness_SweepLandsOnBothBounds : (cfgState 0 270 10 5).Inv ∧ (cfgState 0 270 10 5).SweepPrecondition ∧
    (cfgState 10 0 4 0).Inv ∧ (cfgState 10 0 4 0).LandsAtHalfCycle := by
  exact ⟨by constructor <;> decide, by unfold State.SweepPrecondition; decide, by constructor <;> decide,
    by unfold State.LandsAtHalfCycle; decide⟩
/-- For SweepDoneAfterTargetCycles: the first advance and the one that sets DONE, with SEQ_N = 5 and with SEQ_N = 0. -/
theorem test_witness_SweepDoneAfterTargetCycles : (cfgState 0 270 10 5).LandsAtHalfCycle ∧
    (0 < (cfgState 0 270 10 5).targetVisits ∧ 0 ≤ (cfgState 0 270 10 5).cfgTicks.toNat) ∧
    (4 < (cfgState 0 270 10 5).targetVisits ∧ 10 ≤ (cfgState 0 270 10 5).cfgTicks.toNat) ∧
    2 ^ 32 - 1 < (cfgState 10 0 4 0).targetVisits := by
  exact ⟨by unfold State.LandsAtHalfCycle; decide, by decide, by decide, by decide⟩
/-- For SweepPeriodicOnceLanding: an odd SEQ_T whose walk (1, 2, 1, 0) lands, outside R68's sufficient condition; its first
advance and the one that sets DONE. -/
theorem test_witness_SweepPeriodicOnceLanding : (cfgState 0 2 5 2).Inv ∧ (cfgState 0 2 5 2).LandsAt 2 ∧
    (0 < (cfgState 0 2 5 2).targetVisits ∧ 0 ≤ 2 * 2) ∧ (1 < (cfgState 0 2 5 2).targetVisits ∧ 4 ≤ 2 * 2) := by
  refine ⟨by constructor <;> decide, ⟨by decide, by decide, by decide, ?_⟩, by decide, by decide⟩
  intro k h1 h2
  interval_cases k
  decide
-- R69, example: L = 10, U = 0, T = 4 returns 5, 0, 5, 10.
theorem test_sweep_down : [1, 2, 3, 4].map (fun k => after (execAll (.seqRst false :: List.replicate k (.seqAdv false))
    (cfgState 10 0 4 1)) (fun t => (t.seqOut.toInt, t.seqFlags.dir, t.seqFlags.done))) =
    [some (5, false, false), some (0, true, false), some (5, true, false), some (10, false, true)] := by decide
theorem test_witness_SweepStuckAtLower : (cfgState 0 1 10 3).Inv ∧
    (cfgState 0 1 10 3).plannedPos 1 = (cfgState 0 1 10 3).cfgLower.toInt ∧ 3 ≤ (cfgState 0 1 10 3).cfgTarget.toNat ∧
    start.plannedPos 1 = start.cfgLower.toInt ∧ start.cfgTarget = 0 := by
  exact ⟨by constructor <;> decide, by decide, by decide, by decide, by decide⟩
/-- The source's own end-to-end scenario escapes (90_conflicts.md C1; 95_test_vectors.md L1.7). -/
theorem test_witness_SweepEscapes : (cfgState 0 270 5 5).Inv ∧
    ∀ k : Nat, 1 ≤ k → (cfgState 0 270 5 5).plannedPos k ≠ (cfgState 0 270 5 5).cfgLower.toInt ∧
      (cfgState 0 270 5 5).plannedPos k ≠ (cfgState 0 270 5 5).cfgUpper.toInt := by
  refine ⟨by constructor <;> decide, fun k hk => ?_⟩
  have hl : (cfgState 0 270 5 5).cfgLower.toInt = 0 := by decide
  have hu : (cfgState 0 270 5 5).cfgUpper.toInt = 270 := by decide
  have ht : (cfgState 0 270 5 5).cfgTicks.toNat = 5 := by decide
  have hp : (cfgState 0 270 5 5).plannedPos k = 108 * (k : Int) := by
    have := roundTie_mul (cfgState 0 270 5 5).params.roundTie (108 * (k : Int)) 5 (by norm_num)
    rw [State.plannedPos, State.plannedAcc, hl, hu, ht, ← this]
    congr 1
    push_cast
    ring
  rw [hp, hl, hu]
  omega
theorem test_witness_LedShowsItsBit : (0xFF : BitVec 8).getLsbD 7 = (State.dspValue { start with dspValue := 0x80 }).getLsbD 7 := by
  decide
theorem test_witness_DspColSetsColour : (0x00FFFFFF : Word32).extractLsb' 24 8 = 0 ∧
    (0x01000000 : Word32).extractLsb' 24 8 ≠ 0 := by decide
theorem test_witness_DspBlkSwitchesBlink : (blinkState false true 1000 0).Inv ∧ start.dspBlink.en = false ∧
    (blinkState true false 1000 5).dspBlink.en = true := by
  exact ⟨by constructor <;> decide, by decide, by decide⟩
theorem test_witness_DspRndLatchesValue : ((0 : Int) ≤ 0 ∧ (255 : Int) ≤ 255) ∧ ((-1 : Int) < 0 ∧ (255 : Int) < 256) := by
  decide
theorem test_witness_DspAdvAdvancesTimer : (blinkState true true 333 999999).Inv ∧
    (blinkState true true 333 999999).dspBlink.en = true ∧ start.dspBlink.en = false := by
  exact ⟨by constructor <;> decide, by decide, by decide⟩
theorem test_witness_BlinkPhaseFollowsElapsedTime : start.dspBlink.en = false ∧ 0 < 1000 ∧ 1000 < 2 ^ 32 ∧
    ∀ i ∈ ([.dspAdv 999, .dspBlk true 1000, .dspRnd 5, .dspAdv 1] : List Instr), ∀ (en : Bool) (mhz : Nat),
      i = .dspBlk en mhz → en = true ∧ mhz = 1000 := by
  refine ⟨by decide, by decide, by decide, ?_⟩
  intro i hi en mhz h
  subst h
  simp at hi
  exact hi
theorem test_witness_RepeatedBlinkSettings : (blinkState true false 1000 7).dspBlink.en = true ∧ (500 : Nat) ≠ 0 := by decide
theorem test_witness_ObservationPort : (0x03 : BitVec 8).toNat ∉ [0x00, 0x01, 0x02, 0x08, 0x09, 0x0A, 0x0B, 0x10, 0x11,
    0x12, 0x13, 0x14, 0x15, 0x16, 0x17, 0x20, 0x21, 0x22, 0x23, 0x24] := by decide
theorem test_witness_UnitsOwnTheirRegisters : unitOf (.seqAdv true) ≠ some .dsp ∧ isCoupled (.seqAdv true) = true ∧
    unitOf (.dspRnd 1) ≠ some .act ∧ isCoupled (.dspRnd 1) = false ∧ unitOf .nop ≠ some .seq := by decide
theorem test_witness_FlagsHaveTheirWriters :
    after (exec (.seqRst false) start) (fun t => decide (t.seqFlags ≠ start.seqFlags)) = some true ∧
    after (exec (.dspBlk true 1) start) (fun t => t.dspBlink.en != start.dspBlink.en) = some true ∧
    after (exec (.dspAdv 1000) (blinkState true true 1000 0)) (·.dspBlink.phase) = some false := by decide
theorem test_witness_EventsRecordPulseMoves : Admissible (actState 2017 2000 0).params ∧
    after (exec .actAdv (actState 2017 2000 0)) (·.actCur) = some 2001 ∧
    step { start with input := [⟨true, false, 0⟩] } = .next start := by
  exact ⟨by decide, by decide, rfl⟩
theorem test_witness_IdempotentCommands : start.dspBlink.en = false ∧ (blinkState true false 1000 7).dspBlink.en = true := by
  decide
theorem test_witness_BootOrder : inSigned32 (-90) = true ∧ inSigned32 90 = true ∧ (0 : Nat) < 6 ∧
    (0x00FF00 : Word32).extractLsb' 24 8 = 0 ∧
    (seqSetupCommands (-90) 90 6 1).Perm (seqSetupCommands (-90) 90 6 1) ∧
    (displayCommands ⟨0x00FF00, some 2000, 255⟩).reverse.Perm (displayCommands ⟨0x00FF00, some 2000, 255⟩) := by
  exact ⟨by decide, by decide, by decide, by decide, List.Perm.refl _, List.reverse_perm _⟩

end Sys2Proof.Tests
end

/-! Proofs of the statements of 00_scope.md: R1 (who writes whose registers), R2 (presented words in order), R3 (the
check of a parameter set), R4 (round_tie) and R6 (writes modulo the register's width). -/

namespace Sys2Proof

/-! Decoding a command's own word (30_encoding.md R49, R50, R52). -/

theorem sext32_ofInt {v : Int} (h : inSigned32 v = true) : sext32 (BitVec.ofInt 32 v) = v := by
  obtain ⟨lo, hi⟩ := (inSigned32_iff v).1 h
  exact Machine.toInt_store32 lo hi

theorem zext32_ofNat {v : Nat} (h : inUnsigned32 v = true) : zext32 (BitVec.ofNat 32 v) = v := by
  rw [zext32, BitVec.toNat_ofNat, Nat.mod_eq_of_lt ((inUnsigned32_iff v).1 h)]

/-- A flag in FN[0] reads back, and the other FN bits of its command are 0. -/
theorem fnOfFlag_fields : ∀ b : Bool, (fnOfFlag b)[0] = b ∧ (fnOfFlag b).extractLsb' 1 7 = 0 := by decide

/-- A selector's number reads back, and the other FN bits of its command are 0. -/
theorem setWidth_sel_fields : ∀ k : BitVec 3,
    (k.setWidth 8).extractLsb' 0 3 = k ∧ (k.setWidth 8).extractLsb' 3 5 = 0 := by decide

theorem selOfBits_bits {sel : CfgSel} (h : sel.wellFormed = true) : selOfBits sel.bits = sel := by
  cases sel with
  | unknown k =>
    obtain ⟨lo, hi⟩ : 4 ≤ k ∧ k < 8 := by simpa [CfgSel.wellFormed] using h
    interval_cases k <;> rfl
  | lower => rfl
  | upper => rfl
  | ticks => rfl
  | target => rfl

/-- Decoding inverts encoding on every command that has an encoding. -/
theorem decode_encode {i : Instr} (h : i.wellFormed = true) : decode (encode i) = .ok i := by
  simp only [decode, opcField_encode, fnField_encode, rsvField_encode, immField_encode]
  cases i with
  | nop => rfl
  | actTgt angle => simp [Instr.opc, Instr.fn, Instr.imm, checked, sext32_ofInt h]
  | actAdv => rfl
  | seqCfg sel imm =>
    simp [Instr.opc, Instr.fn, Instr.imm, checked, setWidth_sel_fields sel.bits, selOfBits_bits h]
  | seqRst c => simp [Instr.opc, Instr.fn, Instr.imm, checked, fnOfFlag_fields c]
  | seqAdv c => simp [Instr.opc, Instr.fn, Instr.imm, checked, fnOfFlag_fields c]
  | dspCol rgb => rfl
  | dspBlk en mhz => simp [Instr.opc, Instr.fn, Instr.imm, checked, fnOfFlag_fields en, zext32_ofNat h]
  | dspRnd value => simp [Instr.opc, Instr.fn, Instr.imm, checked, sext32_ofInt h]
  | dspAdv dt => simp [Instr.opc, Instr.fn, Instr.imm, checked, zext32_ofNat h]

end Sys2Proof

namespace Sys2Proof.Machine

/-! Writes modulo the register's width (00_scope.md R6). -/

theorem toNat_store_eq_emod (w : Nat) (v : Int) : ((store w v).toNat : Int) = v % 2 ^ w := by
  rw [store, BitVec.toNat_ofInt, Int.toNat_of_nonneg (Int.emod_nonneg _ (by positivity))]
  push_cast
  rfl

/-- The balanced remainder for an even divisor is the remainder shifted by half of it. -/
theorem bmod_two_mul {h : Nat} (hh : 0 < h) (v : Int) : v.bmod (2 * h) = (v + h) % (2 * h) - h := by
  have nonneg : 0 ≤ (v + h) % (2 * h) := Int.emod_nonneg _ (by omega)
  have lt : (v + h) % (2 * h) < 2 * h := Int.emod_lt_of_pos _ (by omega)
  have multiple : (2 * h : Int) ∣ (v + h) % (2 * h) - h - v := by
    have := (Int.dvd_self_sub_emod (x := v + h) (m := 2 * h)).neg_right
    rwa [show (v + h) % (2 * h) - h - v = -(v + h - (v + h) % (2 * h)) by ring]
  exact (Int.bmod_eq_iff (by omega)).2 ⟨by push_cast; omega, by push_cast; omega, by exact_mod_cast multiple⟩

theorem toInt_store_eq_emod {w : Nat} (hw : 0 < w) (v : Int) :
    (store w v).toInt = (v + 2 ^ (w - 1)) % 2 ^ w - 2 ^ (w - 1) := by
  have double : 2 ^ w = 2 * 2 ^ (w - 1) := by rw [← pow_succ', Nat.sub_add_cancel hw]
  have doubleInt : (2 : Int) ^ w = 2 * 2 ^ (w - 1) := by exact_mod_cast double
  rw [toInt_store, double, bmod_two_mul (by positivity), doubleInt]
  push_cast
  rfl

/-- Settles O23: the unsigned reading is the remainder, the signed one the balanced remainder of an even divisor. -/
theorem writesWrapToTheWidth : Obligations.WritesWrapToTheWidth :=
  fun w v hw => ⟨toNat_store_eq_emod w v, toInt_store_eq_emod hw v⟩

/-! round_tie (00_scope.md R4). -/

/-- An integer within half a divisor of a/b is at least as near as any other: another one is a whole divisor away. -/
theorem natAbs_le_of_within_half {a b y : Int} (hi : 2 * (a - b * y) ≤ b) (lo : -b ≤ 2 * (a - b * y)) (z : Int) :
    (a - b * y).natAbs ≤ (a - b * z).natAbs := by
  have hb : 0 ≤ b := by omega
  rcases lt_trichotomy y z with h | rfl | h
  · have : b * (y + 1) ≤ b * z := mul_le_mul_of_nonneg_left h hb
    rw [mul_add, mul_one] at this
    omega
  · rfl
  · have : b * (z + 1) ≤ b * y := mul_le_mul_of_nonneg_left h hb
    rw [mul_add, mul_one] at this
    omega

theorem roundTie_of_lt_half {tie : RoundTie} {a b : Int} (h : 2 * (a - a / b * b) < b) :
    roundTie tie a b = a / b := if_pos h

theorem roundTie_of_half_lt {tie : RoundTie} {a b : Int} (h : b < 2 * (a - a / b * b)) :
    roundTie tie a b = a / b + 1 := by
  simp only [roundTie, if_neg h.not_gt, if_pos h]

theorem roundTie_of_half {tie : RoundTie} {a b : Int} (h : 2 * (a - a / b * b) = b) :
    roundTie tie a b = tieOf tie (a / b) := by
  simp only [roundTie, if_neg h.not_lt, if_neg h.not_gt]

theorem tieOf_halfEven_even (q : Int) : tieOf .halfEven q % 2 = 0 := by
  simp only [tieOf]
  split <;> omega

/-- Settles O22: q is the floor `a / b`; nearness is the half-divisor bound, the rest are the branches of `roundTie`. -/
theorem roundTieIsNearest : Obligations.RoundTieIsNearest := by
  intro tie a b hb
  obtain ⟨hi, lo⟩ := roundTie_close tie a b hb
  refine ⟨natAbs_le_of_within_half hi lo, a / b, a - a / b * b, Int.mul_ediv_self_le hb.ne', ?_, rfl,
    roundTie_of_lt_half, roundTie_of_half_lt, ?_, ?_⟩
  · rw [mul_add, mul_one]
    exact Int.lt_mul_ediv_self_add hb
  · rintro half rfl
    rw [roundTie_of_half half]
    exact ⟨tieOf_cases _ _, tieOf_halfEven_even _⟩
  · rintro half rfl
    exact roundTie_of_half half

/-! The check of a parameter set (00_scope.md section 5, R3). -/

theorem configure_of_admissible {p : Params} (h : Admissible p) : configure p = .next (State.resetWith p) := if_pos h

theorem configure_of_not_admissible {p : Params} (h : ¬ Admissible p) :
    configure p = .refused .inadmissibleParameters := if_neg h

/-- Settles O15: both clauses read `admissible_iff`, the second with each constraint broken. -/
theorem configureChecksParameters : Obligations.ConfigureChecksParameters := by
  intro p
  constructor
  · intro lower interval angle angleMax minStep resetLo resetHi freq sum
    exact configure_of_admissible ((admissible_iff p).2
      ⟨lower, interval, angle, angleMax, minStep, resetLo, resetHi, freq, sum⟩)
  · intro broken
    apply configure_of_not_admissible
    rw [admissible_iff]
    omega

/-! Which registers a command can write (00_scope.md R1). -/

/-- Two states agree on STATUS and on the model's own fields, which no command writes. -/
def State.SameFixed (s t : State) : Prop := t.status = s.status ∧ t.params = s.params ∧ t.input = s.input

/-- From `s` to `t` only registers and events of ACT are written. -/
def State.OnlyAct (s t : State) : Prop := s.SameSeq t ∧ s.SameDsp t ∧ s.SameFixed t

/-- From `s` to `t` only registers of SEQ are written. -/
def State.OnlySeq (s t : State) : Prop := s.SameAct t ∧ s.SameDsp t ∧ s.SameFixed t

/-- From `s` to `t` only registers of DSP are written. -/
def State.OnlyDsp (s t : State) : Prop := s.SameAct t ∧ s.SameSeq t ∧ s.SameFixed t

/-! A relation below also holds, by definition, of a `t` that is `s` with fields written that the relation does not name;
so these four close every frame goal about an update written out. -/

theorem State.sameAct_refl (s : State) : s.SameAct s := by simp [State.SameAct]

theorem State.sameSeq_refl (s : State) : s.SameSeq s := by simp [State.SameSeq]

theorem State.sameDsp_refl (s : State) : s.SameDsp s := by simp [State.SameDsp]

theorem State.sameFixed_refl (s : State) : s.SameFixed s := by simp [State.SameFixed]

theorem State.onlyAct_refl (s : State) : s.OnlyAct s := ⟨s.sameSeq_refl, s.sameDsp_refl, s.sameFixed_refl⟩

theorem State.onlyAct_command (s : State) (angle : Int) : s.OnlyAct (s.command angle) :=
  ⟨s.sameSeq_refl, s.sameDsp_refl, s.sameFixed_refl⟩

theorem State.onlyAct_movePulse (s : State) (delta : Int) : s.OnlyAct (s.movePulse delta) :=
  ⟨s.sameSeq_refl, s.sameDsp_refl, s.sameFixed_refl⟩

theorem execActAdv_onlyAct (s : State) : ∃ t, execActAdv s = .next t ∧ s.OnlyAct t := by
  obtain ⟨_, h⟩ | ⟨_, _, h⟩ := execActAdv_cases s
  · exact ⟨s, h, s.onlyAct_refl⟩
  · exact ⟨_, h, s.onlyAct_movePulse _⟩

theorem execSeqCfg_onlySeq (sel : CfgSel) (imm : Word32) (s : State) :
    ∃ t, execSeqCfg sel imm s = .next t ∧ s.OnlySeq t := by
  obtain ⟨_, h⟩ | ⟨_, h⟩ | ⟨_, _, h⟩ | ⟨_, h⟩ | ⟨_, h⟩ := execSeqCfg_cases sel imm s
  all_goals exact ⟨_, h, s.sameAct_refl, s.sameDsp_refl, s.sameFixed_refl⟩

theorem execDspCol_onlyDsp (rgb : Word32) (s : State) : ∃ t, execDspCol rgb s = .next t ∧ s.OnlyDsp t := by
  unfold execDspCol
  split
  all_goals exact ⟨_, rfl, s.sameAct_refl, s.sameSeq_refl, s.sameFixed_refl⟩

theorem execDspBlk_onlyDsp (en : Bool) (mhz : Nat) (s : State) : ∃ t, execDspBlk en mhz s = .next t ∧ s.OnlyDsp t := by
  obtain ⟨_, h⟩ | ⟨_, _, h⟩ | ⟨_, _, h⟩ := execDspBlk_cases en mhz s
  all_goals exact ⟨_, h, s.sameAct_refl, s.sameSeq_refl, s.sameFixed_refl⟩

theorem execDspRnd_onlyDsp (value : Int) (s : State) : ∃ t, execDspRnd value s = .next t ∧ s.OnlyDsp t := by
  unfold execDspRnd
  split
  all_goals exact ⟨_, rfl, s.sameAct_refl, s.sameSeq_refl, s.sameFixed_refl⟩

theorem execDspAdv_onlyDsp (dt : Nat) (s : State) : ∃ t, execDspAdv dt s = .next t ∧ s.OnlyDsp t := by
  unfold execDspAdv
  split
  all_goals exact ⟨_, rfl, s.sameAct_refl, s.sameSeq_refl, s.sameFixed_refl⟩

/-- What SEQ.RST and SEQ.ADV may write: registers of SEQ, and in the coupled form ACT_CMD. -/
def State.OnlySeqOrCoupled (s : State) (coupled : Bool) (t : State) : Prop :=
  (coupled = false → s.SameAct t) ∧ (t.actCur = s.actCur ∧ t.events = s.events) ∧ s.SameDsp t ∧ s.SameFixed t

/-- A write of SEQ's registers followed by the coupling. -/
theorem State.OnlySeq.commandIf {s u : State} (h : s.OnlySeq u) (coupled : Bool) (angle : Int) :
    s.OnlySeqOrCoupled coupled (u.commandIf coupled angle) := by
  obtain ⟨act, dsp, fixed⟩ := h
  have ⟨_, cur, events⟩ := act
  obtain ⟨rfl, e⟩ | ⟨rfl, e⟩ := commandIf_cases u coupled angle
  · rw [e]
    exact ⟨nofun, ⟨cur, events⟩, dsp, fixed⟩
  · rw [e]
    exact ⟨fun _ => act, ⟨cur, events⟩, dsp, fixed⟩

theorem execSeqRst_onlySeqOrCoupled (coupled : Bool) (s : State) :
    ∃ t, execSeqRst coupled s = .next t ∧ s.OnlySeqOrCoupled coupled t := by
  refine ⟨_, rfl, State.OnlySeq.commandIf ?_ coupled _⟩
  exact ⟨s.sameAct_refl, s.sameDsp_refl, s.sameFixed_refl⟩

theorem execSeqAdv_onlySeqOrCoupled (coupled : Bool) (s : State) :
    ∃ t, execSeqAdv coupled s = .next t ∧ s.OnlySeqOrCoupled coupled t := by
  unfold execSeqAdv
  split
  · exact ⟨_, rfl, fun _ => s.sameAct_refl, ⟨rfl, rfl⟩, s.sameDsp_refl, s.sameFixed_refl⟩
  · refine ⟨_, rfl, State.OnlySeq.commandIf ?_ coupled _⟩
    exact ⟨s.sameAct_refl, s.sameDsp_refl, s.sameFixed_refl⟩

/-- The clauses of 00_scope.md R1 for one command and its outcome. -/
def RespectsUnits (i : Instr) (s t : State) : Prop :=
  (unitOf i ≠ some .act → isCoupled i = false → s.SameAct t) ∧
  (isCoupled i = true → t.actCur = s.actCur ∧ t.events = s.events) ∧
  (unitOf i ≠ some .seq → s.SameSeq t) ∧ (unitOf i ≠ some .dsp → s.SameDsp t) ∧ s.SameFixed t

theorem State.OnlyAct.respectsUnits {i : Instr} {s t : State} (h : s.OnlyAct t) (unit : unitOf i = some .act)
    (uncoupled : isCoupled i = false) : RespectsUnits i s t := by
  obtain ⟨seq, dsp, fixed⟩ := h
  exact ⟨fun other => absurd unit other, by simp [uncoupled], fun _ => seq, fun _ => dsp, fixed⟩

theorem State.OnlyDsp.respectsUnits {i : Instr} {s t : State} (h : s.OnlyDsp t) (unit : unitOf i = some .dsp) :
    RespectsUnits i s t := by
  obtain ⟨act, seq, fixed⟩ := h
  have ⟨_, cur, events⟩ := act
  exact ⟨fun _ _ => act, fun _ => ⟨cur, events⟩, fun _ => seq, fun other => absurd unit other, fixed⟩

theorem State.OnlySeqOrCoupled.respectsUnits {i : Instr} {s t : State} (h : s.OnlySeqOrCoupled (isCoupled i) t)
    (unit : unitOf i = some .seq) : RespectsUnits i s t := by
  obtain ⟨act, rest, dsp, fixed⟩ := h
  exact ⟨fun _ => act, fun _ => rest, fun other => absurd unit other, fun _ => dsp, fixed⟩

/-- Every command has a next state, and it respects the units. -/
theorem exec_respectsUnits (i : Instr) (s : State) : ∃ t, exec i s = .next t ∧ RespectsUnits i s t := by
  cases i with
  | nop => exact ⟨s, rfl, fun _ _ => s.sameAct_refl, nofun, fun _ => s.sameSeq_refl, fun _ => s.sameDsp_refl,
      s.sameFixed_refl⟩
  | actTgt angle => exact ⟨_, rfl, (s.onlyAct_command angle).respectsUnits rfl rfl⟩
  | actAdv =>
    obtain ⟨t, h, only⟩ := execActAdv_onlyAct s
    exact ⟨t, h, only.respectsUnits rfl rfl⟩
  | seqCfg sel imm =>
    obtain ⟨t, h, act, dsp, fixed⟩ := execSeqCfg_onlySeq sel imm s
    exact ⟨t, h, fun _ _ => act, nofun, fun other => absurd rfl other, fun _ => dsp, fixed⟩
  | seqRst c =>
    obtain ⟨t, h, only⟩ := execSeqRst_onlySeqOrCoupled c s
    exact ⟨t, h, State.OnlySeqOrCoupled.respectsUnits (i := .seqRst c) only rfl⟩
  | seqAdv c =>
    obtain ⟨t, h, only⟩ := execSeqAdv_onlySeqOrCoupled c s
    exact ⟨t, h, State.OnlySeqOrCoupled.respectsUnits (i := .seqAdv c) only rfl⟩
  | dspCol rgb =>
    obtain ⟨t, h, only⟩ := execDspCol_onlyDsp rgb s
    exact ⟨t, h, only.respectsUnits rfl⟩
  | dspBlk en mhz =>
    obtain ⟨t, h, only⟩ := execDspBlk_onlyDsp en mhz s
    exact ⟨t, h, only.respectsUnits rfl⟩
  | dspRnd value =>
    obtain ⟨t, h, only⟩ := execDspRnd_onlyDsp value s
    exact ⟨t, h, only.respectsUnits rfl⟩
  | dspAdv dt =>
    obtain ⟨t, h, only⟩ := execDspAdv_onlyDsp dt s
    exact ⟨t, h, only.respectsUnits rfl⟩

/-- Settles O48: each command's frame, read through the unit that owns it. -/
theorem unitsOwnTheirRegisters : Obligations.UnitsOwnTheirRegisters := exec_respectsUnits

/-- Every command answers a next state, with STATUS, the parameters and the coming inputs as they were. -/
theorem exec_next (i : Instr) (s : State) : ∃ t, exec i s = .next t ∧ s.SameFixed t := by
  obtain ⟨t, h, _, _, _, _, fixed⟩ := exec_respectsUnits i s
  exact ⟨t, h, fixed⟩

/-! Presented words (00_scope.md R2, 20_memory.md R45). -/

/-- An outcome with the given words presented to its next state, if it has one. -/
def outcomePresenting (cws : List CommandWord) : Host.Outcome State Fault Refusal → Host.Outcome State Fault Refusal
  | .next t => .next (t.presenting cws)
  | .fault f => .fault f
  | .refused r => .refused r

@[simp] theorem outcomePresenting_next (cws : List CommandWord) (t : State) :
    outcomePresenting cws (.next t) = .next (t.presenting cws) := rfl

theorem outcomePresenting_ite (cws : List CommandWord) (p : Prop) [Decidable p]
    (o₁ o₂ : Host.Outcome State Fault Refusal) :
    outcomePresenting cws (if p then o₁ else o₂) = if p then outcomePresenting cws o₁ else outcomePresenting cws o₂ :=
  apply_ite _ _ _ _

/-- A command does not read what the ports will show at the coming steps: its guards and writes are the same whatever
words are to come. -/
theorem exec_presenting (i : Instr) (s : State) (cws : List CommandWord) :
    exec i (s.presenting cws) = outcomePresenting cws (exec i s) := by
  cases i with
  | nop => rfl
  | actTgt angle => rfl
  | actAdv => simp only [exec, execActAdv, outcomePresenting_ite]; rfl
  | seqCfg sel imm =>
    cases sel with
    | ticks => simp only [exec, execSeqCfg, outcomePresenting_ite]; rfl
    | lower => rfl
    | upper => rfl
    | target => rfl
    | unknown k => rfl
  | seqRst c => cases c <;> rfl
  | seqAdv c => cases c <;> (simp only [exec, execSeqAdv, outcomePresenting_ite]; rfl)
  | dspCol rgb => simp only [exec, execDspCol, outcomePresenting_ite]; rfl
  | dspBlk en mhz => simp only [exec, execDspBlk, outcomePresenting_ite]; rfl
  | dspRnd value => simp only [exec, execDspRnd, outcomePresenting_ite]; rfl
  | dspAdv dt => simp only [exec, execDspAdv, outcomePresenting_ite]; rfl

/-- One step over a presented legal word is its command, with the later words still to come. -/
theorem step_presenting_cons {s : State} {cw : CommandWord} {i : Instr} (hp : Admissible s.params)
    (hd : decode cw = .ok i) (cws : List CommandWord) :
    step (s.presenting (cw :: cws)) = exec i (s.presenting cws) := by
  have fetched : (s.presenting (cw :: cws)).fetch = (.command cw, s.presenting cws) := rfl
  simp only [step, State.presenting_params, if_pos hp, fetched, hd]

/-- A run whose first step goes on is the run from the next state, on any machine of the host's interface. -/
theorem run_succ_of_step {M : Host.Core} {s t : M.State} (h : M.step s = .next t) (k : Nat) :
    M.run (k + 1) s = M.run k t := by
  simp only [Host.Core.run, h]

/-- Steps over presented words are the commands in a row, from a state whose ports show nothing else. -/
theorem run_presenting (is : List Instr) (wf : ∀ i ∈ is, i.wellFormed = true) (s : State)
    (hp : Admissible s.params) :
    Sys2Proof.core.run is.length (s.presenting (is.map encode)) = execAll is (s.presenting []) := by
  induction is generalizing s with
  | nil => rfl
  | cons i is ih =>
    obtain ⟨wfHead, wfTail⟩ := List.forall_mem_cons.1 wf
    obtain ⟨t, ht, _, params, _⟩ := exec_next i s
    have now (cws : List CommandWord) : exec i (s.presenting cws) = .next (t.presenting cws) := by
      rw [exec_presenting, ht, outcomePresenting_next]
    have first : step (s.presenting ((i :: is).map encode)) = .next (t.presenting (is.map encode)) :=
      (step_presenting_cons hp (decode_encode wfHead) _).trans (now _)
    have rest : Sys2Proof.core.run is.length (t.presenting (is.map encode)) = execAll is (t.presenting []) :=
      ih wfTail t (params ▸ hp)
    have all : execAll (i :: is) (s.presenting []) = execAll is (t.presenting []) := by rw [execAll, now]
    exact (run_succ_of_step (M := Sys2Proof.core) first is.length).trans (rest.trans all.symm)

/-- Settles O17, by induction on the commands; `s.presenting []` is `s` with idle ports. -/
theorem presentedWordsRunInOrder : Obligations.PresentedWordsRunInOrder :=
  fun is s hp wf => run_presenting is wf s hp

end Sys2Proof.Machine

/-! Proofs of the statements of 10_state.md: reset (R7, R32, R95), what a step takes from the ports (R10, R31), the
output and observation ports (R33, R36, R37), the event stream (R34) and the flags' writers (R30). -/

namespace Sys2Proof.Machine

/-! One step over the sample that stands next (10_state.md R31, R32, 60_exceptions.md R84). -/

theorem action_of_rst {x : PortSample} (rst : x.rst = true) : x.action = .reset := by
  simp only [PortSample.action, rst, if_true]

theorem action_of_valid {x : PortSample} (rst : x.rst = false) (valid : x.cmdValid = true) :
    x.action = .command x.cmd := by
  simp only [PortSample.action, rst, valid, Bool.false_eq_true, if_false, if_true]

theorem fetch_of_input {s : State} {x : PortSample} {rest : List PortSample} (input : s.input = x :: rest) :
    s.fetch = (x.action, { s with input := rest }) := by
  simp only [State.fetch, input]

theorem step_of_rst {s : State} {x : PortSample} {rest : List PortSample} (hp : Admissible s.params)
    (input : s.input = x :: rest) (rst : x.rst = true) :
    step s = .next (State.applyReset { s with input := rest }) := by
  simp only [step, if_pos hp, fetch_of_input input, action_of_rst rst]

/-- Settles O10: the sample asks for its word, and the word decodes. -/
theorem stepRunsDecodedInstruction : Obligations.StepRunsDecodedInstruction := by
  intro s x rest i hp input rst valid decoded
  simp only [step, if_pos hp, fetch_of_input input, action_of_valid rst valid, decoded]

/-- Settles O12: RST wins whatever the port shows, and `State.applyReset` is the reset column. -/
theorem resetInput : Obligations.ResetInput :=
  fun _ _ _ hp input rst => step_of_rst hp input rst

/-- A command's outcome is the next state that respects the units (00_scope.md R1). -/
theorem respectsUnits_of_exec {i : Instr} {s t : State} (h : exec i s = .next t) : RespectsUnits i s t := by
  obtain ⟨u, hu, units⟩ := exec_respectsUnits i s
  obtain rfl : u = t := Host.Outcome.next.inj (hu.symm.trans h)
  exact units

theorem exec_status {i : Instr} {s t : State} (h : exec i s = .next t) : t.status = s.status := by
  obtain ⟨_, _, _, _, status, _, _⟩ := respectsUnits_of_exec h
  exact status

/-- Settles O16: of what a step can do, only RST leaves ILL lower than it was: no command writes STATUS, and an illegal
word sets ILL. -/
theorem onlyResetClearsIll : Obligations.OnlyResetClearsIll := by
  intro s t h raised clear
  obtain ⟨_, ⟨_, idle⟩ | ⟨x, rest, input, outcome⟩⟩ := step_cases h
  · simp [idle, raised] at clear
  refine ⟨x, rest, input, ?_⟩
  obtain ⟨rst, _⟩ | ⟨_, _, idle⟩ | ⟨_, _, ⟨i, _, run⟩ | ⟨_, _, illegal⟩⟩ := outcome
  · exact rst
  · simp [idle, raised] at clear
  · simp [exec_status run, raised] at clear
  · simp [illegal] at clear

/-! Who writes the flags (10_state.md R22, R27, R30). -/

theorem execSeqCfg_seqFlags {sel : CfgSel} {imm : Word32} {s t : State} (h : execSeqCfg sel imm s = .next t) :
    t.seqFlags = s.seqFlags := by
  obtain ⟨_, e⟩ | ⟨_, e⟩ | ⟨_, _, e⟩ | ⟨_, e⟩ | ⟨_, e⟩ := execSeqCfg_cases sel imm s
  all_goals
    rw [e] at h
    cases h
    rfl

theorem execDspCol_dspBlink {rgb : Word32} {s t : State} (h : execDspCol rgb s = .next t) :
    t.dspBlink = s.dspBlink := by
  unfold execDspCol at h
  split at h
  all_goals
    cases h
    rfl

theorem execDspRnd_dspBlink {value : Int} {s t : State} (h : execDspRnd value s = .next t) :
    t.dspBlink = s.dspBlink := by
  unfold execDspRnd at h
  split at h
  all_goals
    cases h
    rfl

/-- Time inverts the phase and leaves the mode. -/
theorem execDspAdv_en {dt : Nat} {s t : State} (h : execDspAdv dt s = .next t) :
    t.dspBlink.en = s.dspBlink.en := by
  unfold execDspAdv at h
  split at h
  all_goals
    cases h
    rfl

/-- SEQ_FLAGS are written only by SEQ.RST and SEQ.ADV (10_state.md R22). -/
theorem exec_seqFlags {i : Instr} {s t : State} (h : exec i s = .next t) :
    t.seqFlags = s.seqFlags ∨ ∃ c, i = .seqRst c ∨ i = .seqAdv c := by
  obtain ⟨_, _, seq, _, _⟩ := respectsUnits_of_exec h
  have other (foreign : unitOf i ≠ some .seq) : t.seqFlags = s.seqFlags := by
    obtain ⟨_, _, _, _, _, _, _, _, _, flags, _, _⟩ := seq foreign
    exact flags
  cases i with
  | seqCfg sel imm => exact .inl (execSeqCfg_seqFlags h)
  | seqRst c => exact .inr ⟨c, .inl rfl⟩
  | seqAdv c => exact .inr ⟨c, .inr rfl⟩
  | _ => exact .inl (other nofun)

/-- DSP_BLINK is written only by DSP.BLK and DSP.ADV, and its EN only by DSP.BLK (10_state.md R27). -/
theorem exec_dspBlink {i : Instr} {s t : State} (h : exec i s = .next t) :
    t.dspBlink = s.dspBlink ∨ (∃ en mhz, i = .dspBlk en mhz) ∨
      ∃ dt, i = .dspAdv dt ∧ t.dspBlink.en = s.dspBlink.en := by
  obtain ⟨_, _, _, dsp, _⟩ := respectsUnits_of_exec h
  have other (foreign : unitOf i ≠ some .dsp) : t.dspBlink = s.dspBlink := by
    obtain ⟨_, _, blink, _, _⟩ := dsp foreign
    exact blink
  cases i with
  | dspCol rgb => exact .inl (execDspCol_dspBlink h)
  | dspBlk en mhz => exact .inr (.inl ⟨en, mhz, rfl⟩)
  | dspRnd value => exact .inl (execDspRnd_dspBlink h)
  | dspAdv dt => exact .inr (.inr ⟨dt, rfl, execDspAdv_en h⟩)
  | _ => exact .inl (other nofun)

/-- Settles O49: `exec_seqFlags` and `exec_dspBlink` name each flag word's writers. -/
theorem flagsHaveTheirWriters : Obligations.FlagsHaveTheirWriters := by
  intro i s t h
  refine ⟨by rw [exec_status h], (exec_seqFlags h).resolve_left, ?_⟩
  obtain same | writer | ⟨dt, adv, en⟩ := exec_dspBlink h
  · exact ⟨fun changed => absurd (by rw [same]) changed, fun changed => absurd (by rw [same]) changed⟩
  · exact ⟨fun _ => writer, fun _ => .inl writer⟩
  · exact ⟨fun changed => absurd en changed, fun _ => .inr ⟨dt, adv⟩⟩

/-! The event stream (10_state.md R34): a move of ACT_CUR never stores the value it had. -/

theorem store_toInt_add {w : Nat} (x : BitVec w) (d : Int) : store w (x.toInt + d) = x + store w d := by
  rw [store, BitVec.ofInt_add, BitVec.ofInt_toInt, store]

/-- A displacement inside the signed range moves a register unless it is zero. -/
theorem store_toInt_add_ne {x : Word32} {d : Int} (ne : d ≠ 0) (lo : -2 ^ 31 ≤ d) (hi : d < 2 ^ 31) :
    store 32 (x.toInt + d) ≠ x := by
  intro same
  have zero : store 32 d = 0 := by rwa [store_toInt_add, add_eq_left] at same
  have back := toInt_store32 lo hi
  rw [zero] at back
  exact ne back.symm

/-- The residual of two 32-bit registers has 33 bits; three hundredths of it fit a register with room to spare. -/
theorem pdelta_residual_range (s : State) :
    -2 ^ 31 ≤ pdelta s.params.roundTie s.residual ∧ pdelta s.params.roundTie s.residual < 2 ^ 31 := by
  obtain ⟨hi, lo⟩ := roundTie_close s.params.roundTie (pCoeffNum * s.residual) pCoeffDen (by decide)
  have cmd := toInt_range32 s.actCmd
  have cur := toInt_range32 s.actCur
  simp only [pdelta, State.residual, pCoeffNum, pCoeffDen] at *
  omega

theorem atLeastMinStep_ne_zero {m delta : Int} (ne : delta ≠ 0) : atLeastMinStep m delta ≠ 0 := by
  obtain ⟨small, e⟩ | ⟨_, e⟩ := atLeastMinStep_cases m delta
  · rw [e]
    exact mul_ne_zero (Int.sign_eq_zero_iff_zero.not.2 ne) (by omega)
  · rwa [e]

theorem atLeastMinStep_range {m delta : Int} (mHi : m < 2 ^ 31) (lo : -2 ^ 31 ≤ delta) (hi : delta < 2 ^ 31) :
    -2 ^ 31 ≤ atLeastMinStep m delta ∧ atLeastMinStep m delta < 2 ^ 31 := by
  obtain ⟨small, e⟩ | ⟨_, e⟩ := atLeastMinStep_cases m delta
  · obtain s | s | s := Int.sign_trichotomy delta
    all_goals
      rw [e, s]
      omega
  · rw [e]
    exact ⟨lo, hi⟩

/-- ACT.ADV changes ACT_CUR and emits the new value, or does neither (41_actuator.md R60). -/
theorem execActAdv_pulse {s t : State} (hp : Admissible s.params) (h : execActAdv s = .next t) :
    (t.actCur = s.actCur ∧ t.events = s.events) ∨
      (t.actCur ≠ s.actCur ∧ t.events = s.events ++ [.pwmWrite t.actCur]) := by
  obtain ⟨_, e⟩ | ⟨_, moves, e⟩ := execActAdv_cases s
  · obtain rfl := Host.Outcome.next.inj (e.symm.trans h)
    exact .inl ⟨rfl, rfl⟩
  · obtain rfl := Host.Outcome.next.inj (e.symm.trans h)
    obtain ⟨_, _, _, _, _, _, _, _, sum⟩ := (admissible_iff _).1 hp
    obtain ⟨lo, hi⟩ := pdelta_residual_range s
    obtain ⟨stepLo, stepHi⟩ := atLeastMinStep_range (m := s.params.minStep) (by omega) lo hi
    exact .inr ⟨store_toInt_add_ne (atLeastMinStep_ne_zero moves) stepLo stepHi, rfl⟩

/-- No command but ACT.ADV moves ACT_CUR or emits (10_state.md R12, R34). -/
theorem exec_pulse_of_ne_actAdv {i : Instr} {s t : State} (h : exec i s = .next t) (other : i ≠ .actAdv) :
    t.actCur = s.actCur ∧ t.events = s.events := by
  obtain ⟨act, coupled, _, _, _⟩ := respectsUnits_of_exec h
  have foreign (unit : unitOf i ≠ some .act) : t.actCur = s.actCur ∧ t.events = s.events := by
    cases c : isCoupled i with
    | true => exact coupled c
    | false => exact (act unit c).2
  cases i with
  | actTgt angle =>
    obtain rfl := Host.Outcome.next.inj h
    exact ⟨s.command_actCur angle, s.command_events angle⟩
  | actAdv => exact absurd rfl other
  | _ => exact foreign nofun

/-- A command moves ACT_CUR and emits the new value, being ACT.ADV, or does neither. -/
theorem exec_pulse {i : Instr} {s t : State} (hp : Admissible s.params) (h : exec i s = .next t) :
    (t.actCur = s.actCur ∧ t.events = s.events) ∨
      (i = .actAdv ∧ t.actCur ≠ s.actCur ∧ t.events = s.events ++ [.pwmWrite t.actCur]) := by
  by_cases adv : i = .actAdv
  · subst adv
    exact (execActAdv_pulse hp h).imp_right (⟨rfl, ·⟩)
  · exact .inl (exec_pulse_of_ne_actAdv h adv)

/-- Settles O50: the two outcomes of `exec_pulse`, of which only the second changes the stream or ACT_CUR; and RST keeps
the stream. -/
theorem eventsRecordPulseMoves : Obligations.EventsRecordPulseMoves := by
  constructor
  · intro i s t hp h
    obtain ⟨cur, events⟩ | ⟨adv, moved, events⟩ := exec_pulse hp h
    · simp [cur, events]
    · simp [adv, moved, events]
  · intro s t x rest input rst h
    obtain ⟨hp, _⟩ := step_cases h
    obtain rfl := Host.Outcome.next.inj ((step_of_rst hp input rst).symm.trans h)
    rfl

/-! The output ports and the observation port (10_state.md R33, R36, R37). -/

/-- Settles O46: each output is defined as its register. -/
theorem outputsEqualRegisters : Obligations.OutputsEqualRegisters :=
  fun _ => ⟨rfl, rfl, rfl, rfl, rfl, rfl, rfl⟩

/-- STATUS reads as ILL in bit 0 and zeros above it (10_state.md R10). -/
theorem Status.setWidth_word (f : Status) : f.word.setWidth 96 = (BitVec.ofBool f.ill).setWidth 96 := by
  obtain ⟨ill⟩ := f
  revert ill
  decide

/-- SEQ_FLAGS reads as VALID, DONE, DIR in bits 2, 1, 0 and zeros above them (10_state.md R22). -/
theorem SeqFlags.setWidth_word (f : SeqFlags) :
    f.word.setWidth 96 = (BitVec.ofBool f.valid ++ BitVec.ofBool f.done ++ BitVec.ofBool f.dir).setWidth 96 := by
  obtain ⟨dir, done, valid⟩ := f
  revert dir done valid
  decide

/-- DSP_BLINK reads as PHASE, EN in bits 1, 0 and zeros above them (10_state.md R27). -/
theorem Blink.setWidth_word (f : Blink) :
    f.word.setWidth 96 = (BitVec.ofBool f.phase ++ BitVec.ofBool f.en).setWidth 96 := by
  obtain ⟨en, phase⟩ := f
  revert en phase
  decide

theorem observe_unassigned (s : State) {sel : BitVec 8}
    (unassigned : sel.toNat ∉ [0x00, 0x01, 0x02, 0x08, 0x09, 0x0A, 0x0B, 0x10, 0x11, 0x12, 0x13, 0x14, 0x15, 0x16, 0x17,
      0x20, 0x21, 0x22, 0x23, 0x24]) : s.observe sel = 0 := by
  unfold State.observe
  split
  case h_21 => rfl
  all_goals
    rename_i number
    exact absurd (by simp [number]) unassigned

/-- Settles O47: an assigned number selects its register, whose flag word is its bits side by side; any other selects
none. -/
theorem observationPort : Obligations.ObservationPort := fun s =>
  ⟨s.status.setWidth_word, rfl, rfl, rfl, rfl, rfl, rfl, rfl, rfl, rfl, rfl, rfl, s.seqFlags.setWidth_word, rfl, rfl,
    rfl, rfl, s.dspBlink.setWidth_word, rfl, rfl, fun _ unassigned => observe_unassigned s unassigned⟩

/-! Reset values (10_state.md R7, 70_reset_and_hazards.md R95). -/

/-- Reset leaves DONE alone set in SEQ_FLAGS (10_state.md R22). -/
theorem setWidth_word_doneOnly :
    (SeqFlags.word { dir := false, done := true, valid := false }).setWidth 96 = 2 := rfl

/-- Reset leaves PHASE alone set in DSP_BLINK, as switching the blink off does (10_state.md R27). -/
theorem setWidth_word_blinkOff : blinkOff.word.setWidth 96 = 2 := rfl

/-- Settles O18: each register of `State.resetWith` read through the port. -/
theorem resetRegisters : Obligations.ResetRegisters := fun _ =>
  ⟨rfl, rfl, rfl, rfl, rfl, rfl, rfl, rfl, rfl, rfl, rfl, rfl, setWidth_word_doneOnly, rfl, rfl, rfl, rfl,
    setWidth_word_blinkOff, rfl, rfl, rfl⟩

/-- PULSE_RESET lies in the pulse range, so the registers hold it without wrap. -/
theorem toInt_pulseReset {p : Params} (hp : Admissible p) : (BitVec.ofInt 32 p.pulseReset).toInt = p.pulseReset := by
  obtain ⟨lower, _, _, _, minStep, resetLo, resetHi, _, sum⟩ := (admissible_iff p).1 hp
  exact toInt_store32 (by omega) (by omega)

/-- Settles O20: the two pulse registers hold PULSE_RESET, the other ranges are closed facts about the reset column. -/
theorem invHoldsAtReset : Obligations.InvHoldsAtReset := by
  intro p hp
  obtain ⟨_, _, _, _, minStep, resetLo, resetHi, _, _⟩ := (admissible_iff p).1 hp
  have pulse := toInt_pulseReset hp
  exact {
    actCmd_lo := by rwa [State.resetWith_actCmd, pulse]
    actCmd_hi := by rwa [State.resetWith_actCmd, pulse]
    actCur_lo := by rw [State.resetWith_actCur, pulse, State.resetWith_params]; omega
    actCur_hi := by rw [State.resetWith_actCur, pulse, State.resetWith_params]; omega
    cfgTicks_pos := by simp
    seqT_pos := by simp
    dspFreq_pos := by simp
    dspAcc_le := by simp
    blinkOff_phase := by simp
    blinkOff_acc := by simp }

end Sys2Proof.Machine

/-! Proofs of the statements of 20_memory.md: the byte order of a byte-wide link (R40) and the idempotent commands
(R42). -/

namespace Sys2Proof

/-! The byte-wide link (20_memory.md R40). -/

/-- A word is its bytes side by side, CW[7:0] lowest. -/
theorem bytes_append (cw : CommandWord) :
    (byteOfWord cw 7 ++ byteOfWord cw 6 ++ byteOfWord cw 5 ++ byteOfWord cw 4 ++ byteOfWord cw 3 ++ byteOfWord cw 2 ++
      byteOfWord cw 1 ++ byteOfWord cw 0 : CommandWord) = cw := by
  simp only [byteOfWord, BitVec.extractLsb'_append_extractLsb'_eq_extractLsb']
  exact BitVec.extractLsb'_eq_self

/-- Bit vectors side by side, of the same widths, are equal only part by part. -/
theorem bitVec_append_inj {v w : Nat} {x x' : BitVec v} {y y' : BitVec w} :
    x ++ y = x' ++ y' ↔ x = x' ∧ y = y' := by
  constructor
  · intro same
    constructor
    · simpa only [BitVec.extractLsb'_append_eq_left] using congrArg (BitVec.extractLsb' w v) same
    · simpa only [BitVec.extractLsb'_append_eq_right] using congrArg (BitVec.extractLsb' 0 w) same
  · rintro ⟨rfl, rfl⟩
    rfl

/-- The bytes of eight bytes side by side are those eight: side by side again they are the same word. -/
theorem bytesOfWord_append (b0 b1 b2 b3 b4 b5 b6 b7 : Byte) :
    bytesOfWord (b7 ++ b6 ++ b5 ++ b4 ++ b3 ++ b2 ++ b1 ++ b0) = [b0, b1, b2, b3, b4, b5, b6, b7] := by
  have bytes := bytes_append (b7 ++ b6 ++ b5 ++ b4 ++ b3 ++ b2 ++ b1 ++ b0)
  simp only [bitVec_append_inj, and_assoc] at bytes
  obtain ⟨h7, h6, h5, h4, h3, h2, h1, h0⟩ := bytes
  rw [bytesOfWord, h0, h1, h2, h3, h4, h5, h6, h7]

theorem length_bytesOfWord (cw : CommandWord) : (bytesOfWord cw).length = 8 := rfl

theorem getElem?_bytesOfWord (cw : CommandWord) {k : Nat} (hk : k < 8) :
    (bytesOfWord cw)[k]? = some (byteOfWord cw k) := by
  interval_cases k <;> rfl

theorem wordOfBytes_bytesOfWord (cw : CommandWord) : wordOfBytes (bytesOfWord cw) = some cw :=
  congrArg some (bytes_append cw)

/-- What the link carries: eight bytes are a word, whose bytes they are; any other number of bytes is none. -/
theorem wordOfBytes_cases (bs : List Byte) :
    (bs.length = 8 ∧ ∃ cw, wordOfBytes bs = some cw ∧ bytesOfWord cw = bs) ∨
    (bs.length ≠ 8 ∧ wordOfBytes bs = none) := by
  unfold wordOfBytes
  split
  case h_1 => exact .inl ⟨rfl, _, rfl, bytesOfWord_append ..⟩
  case h_2 notEight =>
    refine .inr ⟨fun len => ?_, rfl⟩
    match bs, len with
    | [_, _, _, _, _, _, _, _], _ => exact notEight _ _ _ _ _ _ _ _ rfl

theorem bytesOfWord_of_wordOfBytes {bs : List Byte} {cw : CommandWord} (h : wordOfBytes bs = some cw) :
    bytesOfWord cw = bs := by
  obtain ⟨_, carried, word, bytes⟩ | ⟨_, none⟩ := wordOfBytes_cases bs
  · obtain rfl := Option.some.inj (word.symm.trans h)
    exact bytes
  · exact absurd (none.symm.trans h) nofun

theorem wordOfBytes_of_length_ne {bs : List Byte} (len : bs.length ≠ 8) : wordOfBytes bs = none := by
  obtain ⟨eight, _⟩ | ⟨_, none⟩ := wordOfBytes_cases bs
  · exact absurd eight len
  · exact none

/-- Settles O7: bytes and word determine each other, and only eight bytes carry a word. -/
theorem linkIsLittleEndian : Obligations.LinkIsLittleEndian :=
  ⟨fun cw => ⟨length_bytesOfWord cw, wordOfBytes_bytesOfWord cw, fun _ hk => getElem?_bytesOfWord cw hk⟩,
    fun _ _ h => bytesOfWord_of_wordOfBytes h, fun _ len => wordOfBytes_of_length_ne len⟩

end Sys2Proof

namespace Sys2Proof.Machine

/-! Idempotent commands (20_memory.md R42). -/

/-- Repeating the command right after itself changes nothing. -/
def Idempotent (i : Instr) : Prop := ∀ s : State, ∃ t, exec i s = .next t ∧ exec i t = .next t

/-- A write that no later state's guard or operand depends on. -/
theorem idempotent_of_write {i : Instr} {write : State → State} (run : ∀ s, exec i s = .next (write s))
    (twice : ∀ s, write (write s) = write s) : Idempotent i :=
  fun s => ⟨write s, run s, (run (write s)).trans (congrArg _ (twice s))⟩

/-- A command rejected in every state. -/
theorem idempotent_of_rejected {i : Instr} (run : ∀ s, exec i s = .next s) : Idempotent i :=
  idempotent_of_write run fun _ => rfl

theorem idempotent_actTgt (angle : Int) : Idempotent (.actTgt angle) :=
  idempotent_of_write (write := (·.command angle)) (fun _ => rfl) fun _ => rfl

theorem idempotent_seqCfg (sel : CfgSel) (imm : Word32) : Idempotent (.seqCfg sel imm) := by
  cases sel with
  | lower => exact idempotent_of_write (fun _ => rfl) fun _ => rfl
  | upper => exact idempotent_of_write (fun _ => rfl) fun _ => rfl
  | ticks =>
    by_cases zero : imm = 0
    · exact idempotent_of_rejected fun _ => if_pos zero
    · exact idempotent_of_write (fun _ => if_neg zero) fun _ => rfl
  | target => exact idempotent_of_write (fun _ => rfl) fun _ => rfl
  | unknown k => exact idempotent_of_rejected fun _ => rfl

theorem idempotent_dspCol (rgb : Word32) : Idempotent (.dspCol rgb) := by
  by_cases bad : colourTop rgb ≠ 0
  · exact idempotent_of_rejected fun _ => if_pos bad
  · exact idempotent_of_write (fun _ => if_neg bad) fun _ => rfl

theorem idempotent_dspRnd (value : Int) : Idempotent (.dspRnd value) := by
  by_cases bad : value < renderMin ∨ renderMax < value
  · exact idempotent_of_rejected fun _ => if_pos bad
  · exact idempotent_of_write (fun _ => if_neg bad) fun _ => rfl

@[simp] theorem Blink.on_en (f : Blink) : f.on.en = true := rfl

/-- Switching on a blink that is on keeps its phase. -/
@[simp] theorem Blink.on_on (f : Blink) : f.on.on = f.on := rfl

/-- DSP.BLK is idempotent whatever the mode before: the second one finds the blink in its own mode. -/
theorem idempotent_dspBlk (en : Bool) (mhz : Nat) : Idempotent (.dspBlk en mhz) := by
  cases en with
  | false => exact idempotent_of_write (fun _ => rfl) fun _ => rfl
  | true =>
    by_cases zero : mhz = 0
    · exact idempotent_of_rejected fun _ => if_pos zero
    · exact idempotent_of_write (fun _ => if_neg zero) fun _ => by simp

/-- Settles O51: the listed commands are idempotent in every state, so R42's condition on DSP.BLK is not used. -/
theorem idempotentCommands : Obligations.IdempotentCommands := by
  intro i s listed
  cases i with
  | actTgt angle => exact idempotent_actTgt angle s
  | seqCfg sel imm => exact idempotent_seqCfg sel imm s
  | dspCol rgb => exact idempotent_dspCol rgb s
  | dspBlk en mhz => exact idempotent_dspBlk en mhz s
  | dspRnd value => exact idempotent_dspRnd value s
  | _ => exact listed.elim

end Sys2Proof.Machine

/-! Proofs of the statements of 30_encoding.md: the two round trips (R49, R50, R52), the opcode table (R50), which words
are legal (R51), the silent rejections (R53), the assembler (R55) and its pseudo-instructions (R56). -/

namespace Sys2Proof

/-- Settles O1: `decode_encode`, by cases of the command. -/
theorem decodeEncodeRoundTrip : Obligations.DecodeEncodeRoundTrip := fun _ wf => decode_encode wf

/-! A word whose decoding succeeds is the encoding of what it decodes to (30_encoding.md R50, R52). -/

theorem inSigned32_sext32 (v : Word32) : inSigned32 (sext32 v) = true :=
  (inSigned32_iff _).2 (Machine.toInt_range32 v)

theorem inUnsigned32_zext32 (v : Word32) : inUnsigned32 (zext32 v) = true := (inUnsigned32_iff _).2 v.isLt

theorem ofInt_sext32 (v : Word32) : BitVec.ofInt 32 (sext32 v) = v := BitVec.ofInt_toInt

theorem ofNat_zext32 (v : Word32) : BitVec.ofNat 32 (zext32 v) = v := by simp [zext32]

theorem wellFormed_selOfBits : ∀ k : BitVec 3, (selOfBits k).wellFormed = true := by decide

/-- One test of `decode`, on the opcode of the command `j`. If it answers, its two checks have passed: then FN and IMM
must be those of `j`. Otherwise the answer comes from the tests below it. -/
theorem encode_of_ite_checked {cw : CommandWord} {fnOk immOk : Bool} {i j : Instr} {below : Except IllegalWord Instr}
    (rsv : rsvField cw = 0) (h : (if opcField cw = j.opc then checked fnOk immOk j else below) = .ok i)
    (fields : fnOk = true → immOk = true → j.wellFormed = true ∧ fnField cw = j.fn ∧ immField cw = j.imm)
    (rest : below = .ok i → i.wellFormed = true ∧ encode i = cw) : i.wellFormed = true ∧ encode i = cw := by
  by_cases opc : opcField cw = j.opc
  · rw [if_pos opc, checked_eq_ok] at h
    obtain ⟨fnPassed, immPassed, rfl⟩ := h
    obtain ⟨wf, fn, imm⟩ := fields fnPassed immPassed
    exact ⟨wf, encode_eq_of_fields opc fn rsv imm⟩
  · rw [if_neg opc] at h
    exact rest h

theorem rsvField_of_decode {cw : CommandWord} {i : Instr} (h : decode cw = .ok i) : rsvField cw = 0 := by
  by_contra rsv
  simp only [decode, ne_eq, rsv, not_false_eq_true, if_true, reduceCtorEq] at h

/-- Inversion of `decode`: every bit that the command does not read has been tested, and its operands hold the bits
that it reads. One test per opcode, in the order of R52. -/
theorem encode_of_decode {cw : CommandWord} {i : Instr} (h : decode cw = .ok i) :
    i.wellFormed = true ∧ encode i = cw := by
  have rsv := rsvField_of_decode h
  simp only [decode, rsv, ne_eq, not_true_eq_false, if_false] at h
  refine encode_of_ite_checked (j := .nop) rsv h (fun fn imm => ⟨rfl, eq_of_beq fn, eq_of_beq imm⟩) fun h => ?_
  refine encode_of_ite_checked (j := .actTgt _) rsv h
    (fun fn _ => ⟨inSigned32_sext32 _, eq_of_beq fn, (ofInt_sext32 _).symm⟩) fun h => ?_
  refine encode_of_ite_checked (j := .actAdv) rsv h (fun fn imm => ⟨rfl, eq_of_beq fn, eq_of_beq imm⟩) fun h => ?_
  refine encode_of_ite_checked (j := .seqCfg _ _) rsv h
    (fun fn _ => ⟨wellFormed_selOfBits _, by rw [Instr.fn, bits_selOfBits, setWidth_sel _ fn], rfl⟩) fun h => ?_
  refine encode_of_ite_checked (j := .seqRst _) rsv h
    (fun fn imm => ⟨rfl, (fnOfFlag_getLsbD _ fn).symm, eq_of_beq imm⟩) fun h => ?_
  refine encode_of_ite_checked (j := .seqAdv _) rsv h
    (fun fn imm => ⟨rfl, (fnOfFlag_getLsbD _ fn).symm, eq_of_beq imm⟩) fun h => ?_
  refine encode_of_ite_checked (j := .dspCol _) rsv h (fun fn _ => ⟨rfl, eq_of_beq fn, rfl⟩) fun h => ?_
  refine encode_of_ite_checked (j := .dspBlk _ _) rsv h
    (fun fn _ => ⟨inUnsigned32_zext32 _, (fnOfFlag_getLsbD _ fn).symm, (ofNat_zext32 _).symm⟩) fun h => ?_
  refine encode_of_ite_checked (j := .dspRnd _) rsv h
    (fun fn _ => ⟨inSigned32_sext32 _, eq_of_beq fn, (ofInt_sext32 _).symm⟩) fun h => ?_
  exact encode_of_ite_checked (j := .dspAdv _) rsv h
    (fun fn _ => ⟨inUnsigned32_zext32 _, eq_of_beq fn, (ofNat_zext32 _).symm⟩) nofun

/-- Settles O2, by the inversion of `decode`. -/
theorem encodeDecodeRoundTrip : Obligations.EncodeDecodeRoundTrip := fun _ _ => encode_of_decode

/-! The table's rows by fields (30_encoding.md R50): every row fixes OPC and RSV, and asks for 0 in the bits of FN and
of IMM that its command does not read. -/

/-- The bits of FN that the command does not read. -/
def Instr.fnMask : Instr → BitVec 8
  | .seqCfg _ _ => 0xF8
  | .seqRst _ => 0xFE
  | .seqAdv _ => 0xFE
  | .dspBlk _ _ => 0xFE
  | _ => BitVec.allOnes 8

/-- All of IMM where the command has no operand. -/
def Instr.immMask : Instr → Word32
  | .nop => BitVec.allOnes 32
  | .actAdv => BitVec.allOnes 32
  | .seqRst _ => BitVec.allOnes 32
  | .seqAdv _ => BitVec.allOnes 32
  | _ => 0

/-- The row of a command, put together from its fields. -/
def rowOf (i : Instr) : OpcodeRow where
  mnemonic := i.mnemonic
  pattern := i.opc ++ (0 : BitVec 8) ++ (0 : BitVec 16) ++ (0 : Word32)
  mask := BitVec.allOnes 8 ++ i.fnMask ++ BitVec.allOnes 16 ++ i.immMask

/-- The table is the rows of the ten commands; a row does not depend on the operands. -/
theorem opcodeTable_eq : opcodeTable =
    [rowOf .nop, rowOf (.actTgt 0), rowOf .actAdv, rowOf (.seqCfg .lower 0), rowOf (.seqRst false),
     rowOf (.seqAdv false), rowOf (.dspCol 0), rowOf (.dspBlk false 0), rowOf (.dspRnd 0), rowOf (.dspAdv 0)] := rfl

theorem rowOf_mem (i : Instr) : rowOf i ∈ opcodeTable := by
  rw [opcodeTable_eq]
  cases i with
  | nop => exact List.mem_of_getElem? (i := 0) rfl
  | actTgt _ => exact List.mem_of_getElem? (i := 1) rfl
  | actAdv => exact List.mem_of_getElem? (i := 2) rfl
  | seqCfg _ _ => exact List.mem_of_getElem? (i := 3) rfl
  | seqRst _ => exact List.mem_of_getElem? (i := 4) rfl
  | seqAdv _ => exact List.mem_of_getElem? (i := 5) rfl
  | dspCol _ => exact List.mem_of_getElem? (i := 6) rfl
  | dspBlk _ _ => exact List.mem_of_getElem? (i := 7) rfl
  | dspRnd _ => exact List.mem_of_getElem? (i := 8) rfl
  | dspAdv _ => exact List.mem_of_getElem? (i := 9) rfl

theorem eq_rowOf_of_mem {r : OpcodeRow} (h : r ∈ opcodeTable) : ∃ i, r = rowOf i := by
  rw [opcodeTable_eq] at h
  simp only [List.mem_cons, List.not_mem_nil, or_false] at h
  rcases h with h | h | h | h | h | h | h | h | h | h <;> exact ⟨_, h⟩

/-- A row matches a word field by field. -/
theorem covers_rowOf (i : Instr) (cw : CommandWord) : (rowOf i).covers cw = true ↔
    opcField cw = i.opc ∧ fnField cw &&& i.fnMask = 0 ∧ rsvField cw = 0 ∧ immField cw &&& i.immMask = 0 := by
  have masked : cw &&& (rowOf i).mask =
      opcField cw ++ (fnField cw &&& i.fnMask) ++ rsvField cw ++ (immField cw &&& i.immMask) := by
    conv_lhs => rw [← fields_append cw, rowOf]
    rw [BitVec.and_append, BitVec.and_append, BitVec.and_append, BitVec.and_allOnes, BitVec.and_allOnes]
  rw [OpcodeRow.covers, beq_iff_eq, masked, rowOf, bitVec_append_inj, bitVec_append_inj, bitVec_append_inj,
    and_assoc, and_assoc]

/-- The mnemonics of the table differ. -/
theorem mnemonic_inj_of_mem : ∀ r ∈ opcodeTable, ∀ r' ∈ opcodeTable, r.mnemonic = r'.mnemonic → r = r' := by decide

/-- The opcodes of the table differ. -/
theorem opc_inj_of_mem : ∀ r ∈ opcodeTable, ∀ r' ∈ opcodeTable, opcField r.pattern = opcField r'.pattern → r = r' := by
  decide

theorem fn_and_fnMask (i : Instr) : i.fn &&& i.fnMask = 0 := by
  have flag : ∀ b : Bool, fnOfFlag b &&& 0xFE = 0 := by decide
  have sel : ∀ k : BitVec 3, k.setWidth 8 &&& 0xF8 = 0 := by decide
  cases i with
  | seqCfg s _ => exact sel s.bits
  | seqRst c => exact flag c
  | seqAdv c => exact flag c
  | dspBlk en _ => exact flag en
  | _ => exact BitVec.zero_and

theorem imm_and_immMask (i : Instr) : i.imm &&& i.immMask = 0 := by
  cases i with
  | nop => exact BitVec.zero_and
  | actAdv => exact BitVec.zero_and
  | seqRst _ => exact BitVec.zero_and
  | seqAdv _ => exact BitVec.zero_and
  | _ => exact BitVec.and_zero

theorem covers_encode (i : Instr) : (rowOf i).covers (encode i) = true := by
  simp only [covers_rowOf, opcField_encode, fnField_encode, rsvField_encode, immField_encode, fn_and_fnMask,
    imm_and_immMask, and_self]

/-- FN[7:1] is what the mask of a flag leaves. -/
theorem and_flagMask : ∀ f : BitVec 8, f &&& 0xFE = 0 ↔ f.extractLsb' 1 7 = 0 := by decide

/-- FN[7:3] is what the mask of a selector leaves. -/
theorem and_selMask : ∀ f : BitVec 8, f &&& 0xF8 = 0 ↔ f.extractLsb' 3 5 = 0 := by decide

/-- A word that a command's row matches passes the tests of `decode` for that opcode: they are the row's masks. -/
theorem exists_decode_of_covers {i : Instr} {cw : CommandWord} (h : (rowOf i).covers cw = true) :
    ∃ j, decode cw = .ok j ∧ j.mnemonic = i.mnemonic := by
  obtain ⟨opc, fn, rsv, imm⟩ := (covers_rowOf i cw).1 h
  cases i <;>
    simp only [Instr.opc, Instr.fnMask, Instr.immMask, BitVec.and_allOnes, and_flagMask, and_selMask] at opc fn imm <;>
    simp [decode, checked, opc, fn, rsv, imm, Instr.mnemonic]

/-- The table's rows are the commands' words (30_encoding.md R50). -/
theorem covers_iff {cw : CommandWord} {r : OpcodeRow} (mem : r ∈ opcodeTable) :
    r.covers cw = true ↔ ∃ i, decode cw = .ok i ∧ i.mnemonic = r.mnemonic := by
  constructor
  · intro covers
    obtain ⟨i, rfl⟩ := eq_rowOf_of_mem mem
    exact exists_decode_of_covers covers
  · rintro ⟨i, decoded, name⟩
    obtain rfl : rowOf i = r := mnemonic_inj_of_mem _ (rowOf_mem i) _ mem name
    obtain ⟨_, rfl⟩ := encode_of_decode decoded
    exact covers_encode i

/-- A row fixes OPC. -/
theorem opcField_of_covers {cw : CommandWord} {r : OpcodeRow} (mem : r ∈ opcodeTable) (covers : r.covers cw = true) :
    opcField cw = opcField r.pattern := by
  obtain ⟨i, rfl⟩ := eq_rowOf_of_mem mem
  obtain ⟨opc, _⟩ := (covers_rowOf i cw).1 covers
  rw [opc, rowOf, opcField_append]

theorem eq_of_covers {cw : CommandWord} {r r' : OpcodeRow} (mem : r ∈ opcodeTable) (mem' : r' ∈ opcodeTable)
    (covers : r.covers cw = true) (covers' : r'.covers cw = true) : r = r' :=
  opc_inj_of_mem r mem r' mem' ((opcField_of_covers mem covers).symm.trans (opcField_of_covers mem' covers'))

/-- Settles O3: a row's masks are the tests of `decode`, and the rows' opcodes differ. -/
theorem tableRowsAreTheCommands : Obligations.TableRowsAreTheCommands :=
  ⟨fun _ _ mem => covers_iff mem, fun _ _ _ mem mem' => eq_of_covers mem mem'⟩

/-! The legal words (30_encoding.md R51). -/

/-- A word is legal iff some command's row matches it. -/
theorem legal_iff_covers {cw : CommandWord} : (∃ i, decode cw = .ok i) ↔ ∃ i, (rowOf i).covers cw = true := by
  constructor
  · rintro ⟨i, decoded⟩
    exact ⟨i, (covers_iff (rowOf_mem i)).2 ⟨i, decoded, rfl⟩⟩
  · rintro ⟨i, covers⟩
    obtain ⟨j, decoded, _⟩ := exists_decode_of_covers covers
    exact ⟨j, decoded⟩

theorem legal_iff_existsUnique_row {cw : CommandWord} :
    (∃ i, decode cw = .ok i) ↔ ∃! r : OpcodeRow, r ∈ opcodeTable ∧ r.covers cw = true := by
  rw [legal_iff_covers]
  constructor
  · rintro ⟨i, covers⟩
    exact ⟨rowOf i, ⟨rowOf_mem i, covers⟩, fun r ⟨mem, covers'⟩ => eq_of_covers mem (rowOf_mem i) covers' covers⟩
  · rintro ⟨r, ⟨mem, covers⟩, _⟩
    obtain ⟨i, rfl⟩ := eq_rowOf_of_mem mem
    exact ⟨i, covers⟩

/-- The assigned opcodes (30_encoding.md R50). -/
theorem opc_assigned_iff {o : BitVec 8} :
    o ∈ ([0x00, 0x10, 0x11, 0x20, 0x21, 0x22, 0x30, 0x31, 0x32, 0x33] : List (BitVec 8)) ↔ ∃ i : Instr, o = i.opc := by
  constructor
  · simp only [List.mem_cons, List.not_mem_nil, or_false]
    rintro (h | h | h | h | h | h | h | h | h | h)
    · exact ⟨.nop, h⟩
    · exact ⟨.actTgt 0, h⟩
    · exact ⟨.actAdv, h⟩
    · exact ⟨.seqCfg .lower 0, h⟩
    · exact ⟨.seqRst false, h⟩
    · exact ⟨.seqAdv false, h⟩
    · exact ⟨.dspCol 0, h⟩
    · exact ⟨.dspBlk false 0, h⟩
    · exact ⟨.dspRnd 0, h⟩
    · exact ⟨.dspAdv 0, h⟩
  · rintro ⟨i, rfl⟩
    cases i <;> simp [Instr.opc]

/-- The mask of FN as R51 says it, by opcode. -/
theorem and_fnMask_iff (i : Instr) (f : BitVec 8) : f &&& i.fnMask = 0 ↔
    if i.opc = 0x20 then f.extractLsb' 3 5 = 0
    else if i.opc ∈ ([0x21, 0x22, 0x31] : List (BitVec 8)) then f.extractLsb' 1 7 = 0
    else f = 0 := by
  cases i with
  | seqCfg _ _ => exact and_selMask f
  | seqRst _ => exact and_flagMask f
  | seqAdv _ => exact and_flagMask f
  | dspBlk _ _ => exact and_flagMask f
  | _ => exact of_eq (congrArg (· = 0) BitVec.and_allOnes)

/-- The mask of IMM as R51 says it, by opcode. -/
theorem and_immMask_iff (i : Instr) (v : Word32) : v &&& i.immMask = 0 ↔
    (i.opc ∈ ([0x00, 0x11, 0x21, 0x22] : List (BitVec 8)) → v = 0) := by
  cases i <;> simp only [Instr.immMask, Instr.opc, BitVec.and_allOnes] <;> simp

/-- A field of FN is a field of the word. -/
theorem extract_fnField (cw : CommandWord) {start len : Nat} (fits : start + len ≤ 8) :
    (fnField cw).extractLsb' start len = cw.extractLsb' (48 + start) len := by
  apply BitVec.eq_of_getLsbD_eq
  intro k hk
  simp [fnField, hk, show start + k < 8 by omega, Nat.add_assoc]

/-- A word is legal iff its four conditions hold. -/
theorem legal_iff {cw : CommandWord} : (∃ i, decode cw = .ok i) ↔
    opcField cw ∈ ([0x00, 0x10, 0x11, 0x20, 0x21, 0x22, 0x30, 0x31, 0x32, 0x33] : List (BitVec 8)) ∧
    rsvField cw = 0 ∧
    (if opcField cw = 0x20 then (fnField cw).extractLsb' 3 5 = 0
     else if opcField cw ∈ ([0x21, 0x22, 0x31] : List (BitVec 8)) then (fnField cw).extractLsb' 1 7 = 0
     else fnField cw = 0) ∧
    (opcField cw ∈ ([0x00, 0x11, 0x21, 0x22] : List (BitVec 8)) → immField cw = 0) := by
  simp only [legal_iff_covers, covers_rowOf, opc_assigned_iff, and_fnMask_iff, and_immMask_iff]
  constructor
  · rintro ⟨i, opc, fn, rsv, imm⟩
    rw [← opc] at fn imm
    exact ⟨⟨i, opc⟩, rsv, fn, imm⟩
  · rintro ⟨⟨i, opc⟩, rsv, fn, imm⟩
    rw [opc] at fn imm
    exact ⟨i, opc, fn, rsv, imm⟩

/-- No row of the table has this opcode. -/
def isUnassigned (k : Nat) : Bool := opcodeTable.all fun r => r.pattern.toNat / 2 ^ 56 != k

/-- The opcodes below 256 that a row has are those of the ten rows. -/
theorem assigned_perm : ((List.range 256).filter (fun k => !isUnassigned k)).Perm
    [0x00, 0x10, 0x11, 0x20, 0x21, 0x22, 0x30, 0x31, 0x32, 0x33] := by
  refine (List.perm_ext_iff_of_nodup (List.nodup_range.filter _) (by decide)).2 fun k => ?_
  simp [isUnassigned, opcodeTable]
  omega

/-- Of the 256 opcodes ten are assigned. -/
theorem length_unassigned : ((List.range 256).filter isUnassigned).length = 246 := by
  have all := List.length_eq_length_filter_add (l := List.range 256) isUnassigned
  rw [List.length_range, assigned_perm.length_eq] at all
  simp only [List.length_cons, List.length_nil] at all
  omega

end Sys2Proof

namespace Sys2Proof.Machine

theorem step_of_illegal {s : State} {x : PortSample} {rest : List PortSample} (hp : Admissible s.params)
    (input : s.input = x :: rest) (rst : x.rst = false) (valid : x.cmdValid = true)
    (illegal : ¬ ∃ i, decode x.cmd = .ok i) : step s = .next (State.takeIllegal { s with input := rest }) := by
  simp only [step, if_pos hp, fetch_of_input input, action_of_valid rst valid]
  cases decoded : decode x.cmd with
  | ok i => exact absurd ⟨i, decoded⟩ illegal
  | error e => rfl

/-- Settles O4: by rows (each legal word has its own), by fields (the masks), by the step, and by counting opcodes. -/
theorem legalWords : Obligations.LegalWords := by
  refine ⟨fun _ => legal_iff_existsUnique_row, fun cw => ?_, fun _ _ _ => step_of_illegal, length_unassigned⟩
  rw [← extract_fnField cw (start := 3) (by decide), ← extract_fnField cw (start := 1) (by decide)]
  exact legal_iff

/-! The operand values that a command's own rule rejects (30_encoding.md R53). -/

/-- Settles O6: each operand is in its field's range, and each command tests for it before any write. -/
theorem silentRejections : Obligations.SilentRejections := by
  refine ⟨fun s k imm lo hi => ?_, fun s => ?_, fun s rgb top => ?_, fun s => ?_, fun s v lo hi outside => ?_⟩
  · have wf : (Instr.seqCfg (.unknown k) imm).wellFormed = true := by
      simp only [Instr.wellFormed, CfgSel.wellFormed, Bool.and_eq_true, decide_eq_true_eq]
      omega
    exact ⟨decode_encode wf, rfl⟩
  · exact ⟨decode_encode rfl, rfl⟩
  · exact ⟨decode_encode rfl, if_pos top⟩
  · exact ⟨decode_encode rfl, rfl⟩
  · exact ⟨decode_encode ((inSigned32_iff v).2 ⟨lo, hi⟩), if_pos outside⟩

/-- Settles O5: eighteen closed words. -/
theorem decodeSampleWords : Obligations.DecodeSampleWords := by
  unfold Obligations.DecodeSampleWords
  decide

end Sys2Proof.Machine

namespace Sys2Proof.Machine

/-! The words the assembler emits (30_encoding.md R55). -/

theorem toNat_encode (i : Instr) :
    (encode i).toNat = i.opc.toNat * 2 ^ 56 + i.fn.toNat * 2 ^ 48 + i.imm.toNat := by
  have opc := i.opc.isLt
  have fn := i.fn.isLt
  have imm := i.imm.isLt
  rw [encode_eq_asmWord (opc := i.opc.toNat) (fn := i.fn.toNat) (imm := i.imm.toNat) fn (by simp) (by simp) (by simp),
    asmWord, BitVec.toNat_ofNat]
  omega

/-- One command with its operands in range gives R55's word, if the word's fields are the command's. -/
theorem words_eq_asmWord {i : Instr} {opc fn : Nat} {imm : Int} (wf : i.wellFormed = true) (byte : fn < 256)
    (opcOf : i.opc = BitVec.ofNat 8 opc) (fnOf : i.fn = BitVec.ofNat 8 fn) (immOf : i.imm = BitVec.ofInt 32 imm) :
    (AsmLine.command i).words = .ok [asmWord opc fn imm] := by
  rw [words_command, if_pos wf, encode_eq_asmWord byte opcOf fnOf immOf]

theorem assembleLine_of_command {line m : List Char} {ops : List (List Char)} {i : Instr}
    (split : splitLine line = (m, ops)) (parsed : lineOf m ops = plain (.command i)) :
    assembleLine line = if i.wellFormed = true then .ok [encode i] else .error .outOfRange :=
  (assembleLine_of_ok split parsed).trans (words_command i)

/-- A line without number gives its one word. -/
theorem assembleLine_of_plain {line m : List Char} {ops : List (List Char)} {i : Instr} {opc fn : Nat}
    (split : splitLine line = (m, ops)) (parsed : lineOf m ops = plain (.command i)) (wf : i.wellFormed = true)
    (word : encode i = asmWord opc fn 0) : assembleLine line = .ok [asmWord opc fn 0] := by
  rw [assembleLine_of_command split parsed, if_pos wf, word]

/-- The line gives the word of its number if that fits, and an error if it does not fit or is no number. -/
def EmitsNumber {α : Type} (line : List Char) (number : Option α) (fits : α → Prop) [DecidablePred fits]
    (word : α → CommandWord) : Prop :=
  (∀ v, number = some v → assembleLine line = if fits v then .ok [word v] else .error .outOfRange) ∧
  (number = none → ∃ e, assembleLine line = .error e)

/-- The common shape of `boundLine`, `countLine`, `dspColLine` and `rawLine`: a number that the reader itself checks. -/
def withRange {α : Type} (number : Option α) (fits : α → Prop) [DecidablePred fits] (make : α → AsmLine) :
    Except AsmError (Option AsmLine) :=
  match number with
  | none => .error .syntaxError
  | some v => if fits v then plain (make v) else .error .outOfRange

theorem boundLine_eq (sel : CfgSel) (x : List Char) : boundLine sel x =
    withRange (intOfText x) (inSigned32 · = true) (fun v => .command (.seqCfg sel (BitVec.ofInt 32 v))) := by
  cases number : intOfText x <;> simp only [boundLine, withRange, number]

theorem countLine_eq (sel : CfgSel) (x : List Char) : countLine sel x =
    withRange (natOfText x) (inUnsigned32 · = true) (fun v => .command (.seqCfg sel (BitVec.ofNat 32 v))) := by
  cases number : natOfText x <;> simp only [countLine, withRange, number]

theorem dspColLine_eq (x : List Char) : dspColLine x =
    withRange (natOfText x) (inUnsigned32 · = true) (fun v => .command (.dspCol (BitVec.ofNat 32 v))) := by
  cases number : natOfText x <;> simp only [dspColLine, withRange, number]

theorem rawLine_eq (x : List Char) : rawLine x =
    withRange (natOfText x) (· < 2 ^ 64) (fun v => .raw (BitVec.ofNat 64 v)) := by
  cases number : natOfText x <;> simp only [rawLine, withRange, number]

section Numbers

variable {α : Type} {line m x : List Char} {ops : List (List Char)} {fits : α → Prop} [DecidablePred fits]
  {word : α → CommandWord}

/-- A reader that checks the range before it makes the line. -/
theorem emitsNumber_of_withRange {number : Option α} {make : α → AsmLine} (split : splitLine line = (m, ops))
    (parsed : lineOf m ops = withRange number fits make) (words : ∀ v, (make v).words = .ok [word v]) :
    EmitsNumber line number fits word := by
  constructor
  · rintro v rfl
    by_cases fit : fits v
    · rw [if_pos fit, ← words v]
      exact assembleLine_of_ok split (parsed.trans (if_pos fit))
    · rw [if_neg fit]
      exact assembleLine_of_error split (parsed.trans (if_neg fit))
  · rintro rfl
    exact ⟨_, assembleLine_of_error split parsed⟩

/-- A reader that leaves the range to `AsmLine.words`. -/
theorem emitsNumber_of_withOperand {read : List Char → Option α} {make : α → Instr} (split : splitLine line = (m, ops))
    (parsed : lineOf m ops = withOperand read (fun v => .command (make v)) x)
    (range : ∀ v, (make v).wellFormed = true ↔ fits v) (words : ∀ v, encode (make v) = word v) :
    EmitsNumber line (read x) fits word := by
  constructor
  · intro v number
    rw [withOperand, number] at parsed
    simp only [assembleLine_of_command split parsed, range, words]
  · intro unread
    rw [withOperand, unread] at parsed
    exact ⟨_, assembleLine_of_error split parsed⟩

theorem EmitsNumber.congr {fits' : α → Prop} [DecidablePred fits'] {number : Option α}
    (h : EmitsNumber line number fits word) (same : ∀ v, fits v ↔ fits' v) : EmitsNumber line number fits' word := by
  simpa only [EmitsNumber, same] using h

end Numbers

/-- `seq.cfg lower|upper, <bound>`, whichever selector the name stands for. -/
theorem emitsNumber_cfgBound {line name x : List Char} {sel : CfgSel}
    (split : splitLine line = (['s', 'e', 'q', '.', 'c', 'f', 'g'], [name, x]))
    (bound : seqCfgLine name x = boundLine sel x) (wf : sel.wellFormed = true) :
    EmitsNumber line (intOfText x) (inSigned32 · = true) (asmWord 0x20 sel.bits.toNat) := by
  refine emitsNumber_of_withRange split (bound.trans (boundLine_eq sel x)) fun v => ?_
  exact words_eq_asmWord wf (by omega) rfl (BitVec.ofNat_toNat 8 sel.bits).symm rfl

/-- `seq.cfg ticks|target|sel<k>, <count>`, whichever selector the name stands for. -/
theorem emitsNumber_cfgCount {line name x : List Char} {sel : CfgSel}
    (split : splitLine line = (['s', 'e', 'q', '.', 'c', 'f', 'g'], [name, x]))
    (count : seqCfgLine name x = countLine sel x) (wf : sel.wellFormed = true) :
    EmitsNumber line (natOfText x) (inUnsigned32 · = true) (fun n => asmWord 0x20 sel.bits.toNat n) := by
  refine emitsNumber_of_withRange split (count.trans (countLine_eq sel x)) fun v => ?_
  exact words_eq_asmWord wf (by omega) rfl (BitVec.ofNat_toNat 8 sel.bits).symm (BitVec.ofInt_natCast 32 v).symm

theorem assembleLine_plainForm {f : AsmForm} {line : List Char} (mem : f ∈ plainForms) (split : f.matchesLine line []) :
    assembleLine line = .ok [asmWord f.opc f.fn 0] := by
  simp only [plainForms, List.mem_cons, List.not_mem_nil, or_false] at mem
  rcases mem with rfl | rfl | rfl | rfl | rfl | rfl | rfl
  · exact assembleLine_of_plain split lineOf_nop rfl rfl
  · exact assembleLine_of_plain split lineOf_actAdv rfl rfl
  · exact assembleLine_of_plain split lineOf_seqRst rfl rfl
  · exact assembleLine_of_plain split lineOf_seqRstC rfl rfl
  · exact assembleLine_of_plain split lineOf_seqAdv rfl rfl
  · exact assembleLine_of_plain split lineOf_seqAdvC rfl rfl
  · exact assembleLine_of_plain split (lineOf_dspBlk _) rfl rfl

theorem emitsNumber_signedForm {f : AsmForm} {line x : List Char} (mem : f ∈ signedForms)
    (split : f.matchesLine line [x]) :
    EmitsNumber line (intOfText x) (inSigned32 · = true) (asmWord f.opc f.fn) := by
  simp only [signedForms, List.mem_cons, List.not_mem_nil, or_false] at mem
  rcases mem with rfl | rfl | rfl | rfl
  · exact emitsNumber_of_withOperand split (lineOf_actTgt x) (fun _ => Iff.rfl)
      fun _ => encode_eq_asmWord (by decide) rfl rfl rfl
  · exact emitsNumber_cfgBound (sel := .lower) split rfl rfl
  · exact emitsNumber_cfgBound (sel := .upper) split rfl rfl
  · exact emitsNumber_of_withOperand split (lineOf_dspRnd x) (fun _ => Iff.rfl)
      fun _ => encode_eq_asmWord (by decide) rfl rfl rfl

theorem emitsNumber_unsignedForm {f : AsmForm} {line x : List Char} (mem : f ∈ unsignedForms)
    (split : f.matchesLine line [x]) :
    EmitsNumber line (natOfText x) (inUnsigned32 · = true) (fun n => asmWord f.opc f.fn n) := by
  have imm (n : Nat) : BitVec.ofNat 32 n = BitVec.ofInt 32 n := (BitVec.ofInt_natCast 32 n).symm
  simp only [unsignedForms, List.mem_cons, List.not_mem_nil, or_false] at mem
  rcases mem with rfl | rfl | rfl | rfl | rfl | rfl | rfl | rfl | rfl
  · exact emitsNumber_cfgCount (sel := .ticks) split rfl rfl
  · exact emitsNumber_cfgCount (sel := .target) split rfl rfl
  · exact emitsNumber_cfgCount (sel := .unknown 4) split rfl rfl
  · exact emitsNumber_cfgCount (sel := .unknown 5) split rfl rfl
  · exact emitsNumber_cfgCount (sel := .unknown 6) split rfl rfl
  · exact emitsNumber_cfgCount (sel := .unknown 7) split rfl rfl
  · refine emitsNumber_of_withRange split ((lineOf_dspCol x).trans (dspColLine_eq x)) fun n => ?_
    exact words_eq_asmWord rfl (by decide) rfl rfl (imm n)
  · exact emitsNumber_of_withOperand split (lineOf_dspBlk _) (fun _ => Iff.rfl)
      fun n => encode_eq_asmWord (by decide) rfl rfl (imm n)
  · exact emitsNumber_of_withOperand split (lineOf_dspAdv x) (fun _ => Iff.rfl)
      fun n => encode_eq_asmWord (by decide) rfl rfl (imm n)

/-- Settles O8: the word is the encoder's, and each form of line makes the command whose fields R55 lists for it. -/
theorem assemblerEmitsTheWord : Obligations.AssemblerEmitsTheWord := by
  refine ⟨fun i => ⟨fun wf => ?_, fun bad => ?_⟩, fun f line => assembleLine_plainForm, fun f line x mem split => ?_,
    fun f line x mem split => ?_, fun line x split => ?_⟩
  · exact ⟨encode i, (words_command i).trans (if_pos wf), toNat_encode i⟩
  · exact (words_command i).trans (if_neg (by simp [bad]))
  · exact (emitsNumber_signedForm mem split).congr inSigned32_iff
  · exact (emitsNumber_unsignedForm mem split).congr inUnsigned32_iff
  · exact emitsNumber_of_withRange split ((lineOf_raw x).trans (rawLine_eq x)) fun _ => rfl

/-! The pseudo-instructions (30_encoding.md R56): each is its expansion if its operands fit the commands in it. -/

theorem words_tick (ms : Nat) : (AsmLine.tick ms).words =
    if ms < 2 ^ 32 then .ok [encode .actAdv, encode (.dspAdv ms)] else .error .outOfRange := by
  simp [AsmLine.words, wordsOf, tickCommands, Instr.wellFormed, inUnsigned32]

theorem words_seqBounds (l u : Int) : (AsmLine.seqBounds l u).words =
    if inSigned32 l = true ∧ inSigned32 u = true then
      .ok [encode (.seqCfg .lower (BitVec.ofInt 32 l)), encode (.seqCfg .upper (BitVec.ofInt 32 u))]
    else .error .outOfRange := by
  simp [AsmLine.words, wordsOf, seqBoundsCommands, cfgLowerOf, cfgUpperOf, Instr.wellFormed, CfgSel.wellFormed]

theorem words_seqSetup (l u : Int) (t n : Nat) : (AsmLine.seqSetup l u t n).words =
    if inSigned32 l = true ∧ inSigned32 u = true ∧ t < 2 ^ 32 ∧ n < 2 ^ 32 then
      .ok [encode (.seqCfg .lower (BitVec.ofInt 32 l)), encode (.seqCfg .upper (BitVec.ofInt 32 u)),
        encode (.seqCfg .ticks (BitVec.ofNat 32 t)), encode (.seqCfg .target (BitVec.ofNat 32 n))]
    else .error .outOfRange := by
  simp [AsmLine.words, wordsOf, seqSetupCommands, cfgLowerOf, cfgUpperOf, cfgTicksOf, cfgTargetOf, Instr.wellFormed,
    CfgSel.wellFormed, inUnsigned32, and_assoc]

theorem words_dspShow (rgb : Nat) (v : Int) : (AsmLine.dspShow rgb v).words =
    if rgb < 2 ^ 32 ∧ inSigned32 v = true then .ok [encode (.dspCol (BitVec.ofNat 32 rgb)), encode (.dspRnd v)]
    else .error .outOfRange := by
  simp [AsmLine.words, wordsOf, dspShowCommands, Instr.wellFormed, inUnsigned32]

theorem lineOf_tick_of {x : List Char} {ms : Nat} (number : natOfText x = some ms) :
    lineOf ['t', 'i', 'c', 'k'] [x] = plain (.tick ms) := by
  simp only [lineOf_tick, withOperand, number, plain]

theorem lineOf_seqBounds_of {x y : List Char} {l u : Int} (lower : intOfText x = some l)
    (upper : intOfText y = some u) :
    lineOf ['s', 'e', 'q', '.', 'b', 'o', 'u', 'n', 'd', 's'] [x, y] = plain (.seqBounds l u) := by
  simp only [lineOf_seqBounds, seqBoundsLine, lower, upper]

theorem lineOf_seqSetup_of {x y z w : List Char} {l u : Int} {t n : Nat} (lower : intOfText x = some l)
    (upper : intOfText y = some u) (ticks : natOfText z = some t) (target : natOfText w = some n) :
    lineOf ['s', 'e', 'q', '.', 's', 'e', 't', 'u', 'p'] [x, y, z, w] = plain (.seqSetup l u t n) := by
  simp only [lineOf_seqSetup, seqSetupLine, lower, upper, ticks, target]

theorem lineOf_dspShow_of {x y : List Char} {rgb : Nat} {v : Int} (colour : natOfText x = some rgb)
    (value : intOfText y = some v) :
    lineOf ['d', 's', 'p', '.', 's', 'h', 'o', 'w'] [x, y] = plain (.dspShow rgb v) := by
  simp only [lineOf_dspShow, dspShowLine, colour, value]

/-- One operand out of range refuses the whole line. -/
theorem pseudo_outOfRange (l u : Int) (t n ms rgb : Nat) (v : Int) :
    (2 ^ 32 ≤ ms → (AsmLine.tick ms).words = .error .outOfRange) ∧
    (inSigned32 l = false ∨ inSigned32 u = false → (AsmLine.seqBounds l u).words = .error .outOfRange) ∧
    (inSigned32 l = false ∨ inSigned32 u = false ∨ 2 ^ 32 ≤ t ∨ 2 ^ 32 ≤ n →
      (AsmLine.seqSetup l u t n).words = .error .outOfRange) ∧
    (2 ^ 32 ≤ rgb ∨ inSigned32 v = false → (AsmLine.dspShow rgb v).words = .error .outOfRange) := by
  refine ⟨fun bad => ?_, fun bad => ?_, fun bad => ?_, fun bad => ?_⟩
  · exact (words_tick ms).trans (if_neg (by omega))
  · exact (words_seqBounds l u).trans (if_neg (by grind))
  · exact (words_seqSetup l u t n).trans (if_neg (by grind))
  · exact (words_dspShow rgb v).trans (if_neg (by grind))

/-- Settles O9: each pseudo-instruction's words by its range, each line by its reader. -/
theorem pseudoInstructionsExpand : Obligations.PseudoInstructionsExpand := by
  refine ⟨fun ms fit => ?_, fun l u hl hu => ?_, fun l u t n hl hu ht hn => ?_, fun rgb v hrgb hv => ?_, rfl, rfl, rfl,
    pseudo_outOfRange, fun line x split ms number => ?_, fun line x y split l u lower upper => ?_,
    fun line x y z w split l u t n lower upper ticks target => ?_, fun line x y split rgb v colour value => ?_,
    fun line => ⟨fun split => ?_, fun split => ?_, fun split => ?_⟩⟩
  · exact (words_tick ms).trans (if_pos fit)
  · exact (words_seqBounds l u).trans (if_pos ⟨hl, hu⟩)
  · exact (words_seqSetup l u t n).trans (if_pos ⟨hl, hu, ht, hn⟩)
  · exact (words_dspShow rgb v).trans (if_pos ⟨hrgb, hv⟩)
  · exact assembleLine_of_ok split (lineOf_tick_of number)
  · exact assembleLine_of_ok split (lineOf_seqBounds_of lower upper)
  · exact assembleLine_of_ok split (lineOf_seqSetup_of lower upper ticks target)
  · exact assembleLine_of_ok split (lineOf_dspShow_of colour value)
  · exact assembleLine_of_command split lineOf_seqRearm
  · exact assembleLine_of_command split lineOf_seqPlay
  · exact assembleLine_of_command split (lineOf_dspBlk _)

end Sys2Proof.Machine

/-! Proofs of the statements of 41_actuator.md: the angle-to-pulse map (R57), the proportional delta (R58), ACT.TGT (R59),
ACT.ADV (R60), the register ranges (R61), progress (R62) and settling (R63). -/

namespace Sys2Proof.Machine

/-! The angle-to-pulse map (41_actuator.md R57). -/

/-- The source's form of the map: one floor division of the angle clamped to 0 .. MAX_ANGLE. -/
theorem a2p_eq_clamp {p : Params} (hp : Admissible p) (angle : Int) :
    a2p p angle = p.pulseLower + p.pulseInterval * max 0 (min angle p.maxAngle) / p.maxAngle := by
  obtain ⟨_, _, maxAngle, _⟩ := (admissible_iff p).1 hp
  obtain ⟨low, e⟩ | ⟨pos, top, e⟩ | ⟨pos, below, e⟩ := a2p_cases p angle
  · rw [e, max_eq_left ((min_le_left _ _).trans low), mul_zero, Int.zero_ediv, add_zero]
  · rw [e, min_eq_right top, max_eq_right (by omega), Int.mul_ediv_cancel _ (by omega)]
  · rw [e, min_eq_left below.le, max_eq_right pos.le]

theorem a2p_of_nonpos {p : Params} {angle : Int} (h : angle ≤ 0) : a2p p angle = p.pulseLower := if_pos h

theorem a2p_of_maxAngle_le {p : Params} (hp : Admissible p) {angle : Int} (h : p.maxAngle ≤ angle) :
    a2p p angle = p.pulseLower + p.pulseInterval := by
  obtain ⟨_, _, maxAngle, _⟩ := (admissible_iff p).1 hp
  rw [a2p, if_neg (by omega), if_pos h]

/-- Mid-range the dividend is not negative, so the quotient's floor is its truncation. -/
theorem a2p_mid {p : Params} (hp : Admissible p) {angle : Int} (pos : 0 < angle) (below : angle < p.maxAngle) :
    a2p p angle = p.pulseLower + (p.pulseInterval * angle).fdiv p.maxAngle ∧
      (p.pulseInterval * angle).fdiv p.maxAngle = (p.pulseInterval * angle).tdiv p.maxAngle := by
  obtain ⟨_, interval, maxAngle, _⟩ := (admissible_iff p).1 hp
  have floor : (p.pulseInterval * angle).fdiv p.maxAngle = p.pulseInterval * angle / p.maxAngle :=
    Int.fdiv_eq_ediv_of_nonneg _ (by omega)
  have trunc : (p.pulseInterval * angle).tdiv p.maxAngle = p.pulseInterval * angle / p.maxAngle :=
    Int.tdiv_eq_ediv_of_nonneg (mul_nonneg interval pos.le)
  exact ⟨by rw [floor, a2p, if_neg (by omega), if_neg (by omega)], by rw [floor, trunc]⟩

theorem a2p_mono {p : Params} (hp : Admissible p) {a b : Int} (h : a ≤ b) : a2p p a ≤ a2p p b := by
  obtain ⟨_, interval, maxAngle, _⟩ := (admissible_iff p).1 hp
  have clamped : p.pulseInterval * max 0 (min a p.maxAngle) ≤ p.pulseInterval * max 0 (min b p.maxAngle) := by gcongr
  rw [a2p_eq_clamp hp, a2p_eq_clamp hp]
  exact Int.add_le_add_left (Int.ediv_le_ediv (by omega) clamped) _

/-- Every pulse lies between those of the angles 0 and MAX_ANGLE. -/
theorem a2p_range {p : Params} (hp : Admissible p) (angle : Int) :
    p.pulseLower ≤ a2p p angle ∧ a2p p angle ≤ p.pulseLower + p.pulseInterval := by
  have lower := a2p_mono hp (min_le_left angle 0)
  have upper := a2p_mono hp (le_max_left angle p.maxAngle)
  rw [a2p_of_nonpos (min_le_right _ _)] at lower
  rw [a2p_of_maxAngle_le hp (le_max_right _ _)] at upper
  exact ⟨lower, upper⟩

/-- A register holds every pulse without wrap. -/
theorem toInt_store_a2p {p : Params} (hp : Admissible p) (angle : Int) : (store 32 (a2p p angle)).toInt = a2p p angle := by
  obtain ⟨lower, _, _, _, minStep, _, _, _, sum⟩ := (admissible_iff p).1 hp
  obtain ⟨lo, hi⟩ := a2p_range hp angle
  exact toInt_store32 (by omega) (by omega)

/-- Settles O24: the three branches, and the range and the order from the clamped form. -/
theorem angleToPulseMap : Obligations.AngleToPulseMap := by
  intro p hp
  refine ⟨fun angle => ⟨a2p_of_nonpos, a2p_of_maxAngle_le hp, a2p_mid hp, ?_⟩, fun _ _ => a2p_mono hp⟩
  exact a2p_range hp angle

/-! The proportional delta (41_actuator.md R58). -/

/-- The reflection q ↦ -q - 1 of the floor, under which an exact half keeps its place between two integers. -/
theorem tieOf_neg_sub_one (tie : RoundTie) (q : Int) : tieOf tie (-q - 1) = -tieOf tie q := by
  cases tie with
  | halfEven => simp only [tieOf]; split_ifs <;> omega
  | halfAway => simp only [tieOf]; split_ifs <;> omega

/-- Rounding is odd under either tie rule. -/
theorem roundTie_neg (tie : RoundTie) (a : Int) {b : Int} (hb : 0 < b) : roundTie tie (-a) b = -roundTie tie a b := by
  by_cases multiple : b ∣ a
  · obtain ⟨z, rfl⟩ := multiple
    rw [mul_comm, ← neg_mul, roundTie_mul _ _ _ hb, roundTie_mul _ _ _ hb]
  have floor : -a / b = -(a / b) - 1 := by rw [Int.neg_ediv, if_neg multiple, Int.sign_eq_one_of_pos hb]
  have rest : -a - -a / b * b = b - (a - a / b * b) := by rw [floor]; ring
  obtain less | half | more := lt_trichotomy (2 * (a - a / b * b)) b
  · rw [roundTie_of_lt_half less, roundTie_of_half_lt (by rw [rest]; omega), floor]
    ring
  · rw [roundTie_of_half half, roundTie_of_half (by rw [rest]; omega), floor, tieOf_neg_sub_one]
  · rw [roundTie_of_half_lt more, roundTie_of_lt_half (by rw [rest]; omega), floor]
    ring

theorem pdelta_neg (tie : RoundTie) (d : Int) : pdelta tie (-d) = -pdelta tie d := by
  rw [pdelta, pdelta, mul_neg, roundTie_neg _ _ (by decide)]

/-- The delta is within a half of 3d/100. -/
theorem pdelta_close (tie : RoundTie) (d : Int) :
    2 * (3 * d - 100 * pdelta tie d) ≤ 100 ∧ -100 ≤ 2 * (3 * d - 100 * pdelta tie d) :=
  roundTie_close tie (3 * d) 100 (by decide)

theorem pdelta_eq_zero_iff (tie : RoundTie) (d : Int) : pdelta tie d = 0 ↔ d.natAbs ≤ 16 := by
  obtain ⟨hi, lo⟩ := pdelta_close tie d
  omega

theorem pdelta_of_half (tie : RoundTie) {d : Int} (h : d % 100 = 50) : pdelta tie d = tieOf tie (3 * d / 100) :=
  roundTie_of_half (a := 3 * d) (b := 100) (by omega)

theorem tieOf_agree_iff {q : Int} (h : 0 ≤ q) : tieOf .halfEven q = tieOf .halfAway q ↔ q % 2 = 1 := by
  simp only [tieOf, if_pos h]
  split <;> omega

/-- The tie rules agree on d iff they agree on |d|, the delta being odd. -/
theorem pdelta_agree_iff_natAbs (d : Int) :
    pdelta .halfEven d = pdelta .halfAway d ↔
      pdelta .halfEven (d.natAbs : Int) = pdelta .halfAway (d.natAbs : Int) := by
  obtain e | e := abs_choice d
  · rw [Int.natCast_natAbs, e]
  · rw [Int.natCast_natAbs, e, pdelta_neg, pdelta_neg, neg_inj]

/-- At an exact half the quotient (3|d| - 50)/100 is the floor of 3|d|/100, and its parity decides. -/
theorem pdelta_agree_iff {d : Int} (h : d.natAbs % 100 = 50) :
    pdelta .halfEven d = pdelta .halfAway d ↔ (3 * (d.natAbs : Int) - 50) / 100 % 2 = 1 := by
  have half : (d.natAbs : Int) % 100 = 50 := by omega
  have floor : (3 * (d.natAbs : Int) - 50) / 100 = 3 * (d.natAbs : Int) / 100 := by omega
  rw [pdelta_agree_iff_natAbs, pdelta_of_half _ half, pdelta_of_half _ half, tieOf_agree_iff (by omega), floor]

/-- Settles O25: oddness of rounding, nearness for the zero range, and the tie rules at an exact half. -/
theorem proportionalDelta : Obligations.ProportionalDelta := by
  intro d
  refine ⟨fun tie => ⟨rfl, pdelta_neg tie d, pdelta_eq_zero_iff tie d⟩, ?_, fun h => ⟨?_, pdelta_agree_iff h⟩,
    by decide, by decide, by decide, by decide⟩
  · omega
  · omega

/-! The delta of a move (41_actuator.md R60, R62). -/

/-- What a moving ACT.ADV adds to ACT_CUR at residual d. -/
def moveDelta (p : Params) (d : Int) : Int := atLeastMinStep p.minStep (pdelta p.roundTie d)

theorem atLeastMinStep_neg (m delta : Int) : atLeastMinStep m (-delta) = -atLeastMinStep m delta := by
  simp only [atLeastMinStep, Int.natAbs_neg, Int.sign_neg]
  split <;> ring

theorem moveDelta_neg (p : Params) (d : Int) : moveDelta p (-d) = -moveDelta p d := by
  rw [moveDelta, moveDelta, pdelta_neg, atLeastMinStep_neg]

/-- Upward, a move goes up and not past the commanded pulse, unless MIN_STEP alone is longer than the way. -/
theorem moveDelta_of_pos (p : Params) {d : Int} (h : 17 ≤ d) :
    (p.minStep ≤ d → 0 < moveDelta p d ∧ moveDelta p d ≤ d) ∧ (d < p.minStep → moveDelta p d = p.minStep) := by
  obtain ⟨hi, lo⟩ := pdelta_close p.roundTie d
  have up : (pdelta p.roundTie d).sign = 1 := Int.sign_eq_one_of_pos (by omega)
  obtain ⟨small, e⟩ | ⟨large, e⟩ := atLeastMinStep_cases p.minStep (pdelta p.roundTie d)
  · rw [moveDelta, e, up, one_mul]
    omega
  · rw [moveDelta, e]
    omega

/-- Downward, the mirror image. -/
theorem moveDelta_of_neg (p : Params) {d : Int} (h : d ≤ -17) :
    (p.minStep ≤ -d → d ≤ moveDelta p d ∧ moveDelta p d < 0) ∧ (-d < p.minStep → moveDelta p d = -p.minStep) := by
  have up := moveDelta_of_pos p (d := -d) (by omega)
  rw [moveDelta_neg] at up
  omega

/-- A residual that moves has a direction. -/
theorem direction_cases {d : Int} (h : 17 ≤ d.natAbs) : (17 ≤ d ∧ d.sign = 1) ∨ (d ≤ -17 ∧ d.sign = -1) := by
  obtain up | down := lt_or_ge 0 d
  · exact .inl ⟨by omega, Int.sign_eq_one_of_pos up⟩
  · exact .inr ⟨by omega, Int.sign_eq_neg_one_of_neg (by omega)⟩

theorem sign_pdelta (tie : RoundTie) {d : Int} (h : 17 ≤ d.natAbs) : (pdelta tie d).sign = d.sign := by
  obtain ⟨hi, lo⟩ := pdelta_close tie d
  obtain ⟨up, e⟩ | ⟨down, e⟩ := direction_cases h
  · rw [e, Int.sign_eq_one_iff_pos]
    omega
  · rw [e, Int.sign_eq_neg_one_iff_neg]
    omega

theorem sign_moveDelta (p : Params) {d : Int} (h : 17 ≤ d.natAbs) : (moveDelta p d).sign = d.sign := by
  obtain ⟨up, e⟩ | ⟨down, e⟩ := direction_cases h
  · have := moveDelta_of_pos p up
    rw [e, Int.sign_eq_one_iff_pos]
    omega
  · have := moveDelta_of_neg p down
    rw [e, Int.sign_eq_neg_one_iff_neg]
    omega

/-- Without overshoot the residual shrinks, and what is left of it keeps its direction. -/
theorem residual_progress (p : Params) {d : Int} (h : 17 ≤ d.natAbs) (far : p.minStep ≤ d.natAbs) :
    (d - moveDelta p d).natAbs < d.natAbs ∧ ((d - moveDelta p d).sign = d.sign ∨ d - moveDelta p d = 0) := by
  by_cases arrived : d - moveDelta p d = 0
  · exact ⟨by omega, .inr arrived⟩
  obtain ⟨up, e⟩ | ⟨down, e⟩ := direction_cases h
  · have := moveDelta_of_pos p up
    rw [e, Int.sign_eq_one_iff_pos]
    omega
  · have := moveDelta_of_neg p down
    rw [e, Int.sign_eq_neg_one_iff_neg]
    omega

/-- With overshoot the move is MIN_STEP in the residual's direction. -/
theorem moveDelta_overshoot (p : Params) {d : Int} (h : 17 ≤ d.natAbs) (near : d.natAbs < p.minStep) :
    moveDelta p d = d.sign * p.minStep := by
  obtain ⟨up, e⟩ | ⟨down, e⟩ := direction_cases h
  · rw [(moveDelta_of_pos p up).2 (by omega), e, one_mul]
  · rw [(moveDelta_of_neg p down).2 (by omega), e, neg_one_mul]

theorem natAbs_overshoot {d m : Int} (h : 17 ≤ d.natAbs) (near : d.natAbs < m) :
    ((d - d.sign * m).natAbs : Int) = m - d.natAbs := by
  obtain ⟨up, e⟩ | ⟨down, e⟩ := direction_cases h
  · rw [e]
    omega
  · rw [e]
    omega

/-- A second overshoot leads back. -/
theorem overshoot_overshoot {d m : Int} (h : 17 ≤ d.natAbs) (near : d.natAbs < m) :
    d - d.sign * m - (d - d.sign * m).sign * m = d := by
  obtain ⟨up, e⟩ | ⟨down, e⟩ := direction_cases h
  · rw [e, Int.sign_eq_neg_one_of_neg (by omega)]
    ring
  · rw [e, Int.sign_eq_one_of_pos (by omega)]
    ring

/-- With MIN_STEP <= 33 an overshoot too shrinks the residual: it leaves at most 16. -/
theorem residual_shrinks {p : Params} (m : p.minStep ≤ 33) {d : Int} (h : 17 ≤ d.natAbs) :
    (d - moveDelta p d).natAbs < d.natAbs := by
  by_cases far : p.minStep ≤ d.natAbs
  · exact (residual_progress p h far).1
  · have left := natAbs_overshoot h (lt_of_not_ge far)
    rw [moveDelta_overshoot p h (lt_of_not_ge far)]
    omega

/-! The ranges of ACT's registers (10_state.md R11, 41_actuator.md R61). -/

/-- The part of `State.Inv` that speaks of ACT. -/
structure State.ActRange (s : State) : Prop where
  cmd_lo : s.params.pulseLower ≤ s.actCmd.toInt
  cmd_hi : s.actCmd.toInt ≤ s.params.pulseLower + s.params.pulseInterval
  cur_lo : s.params.pulseLower - s.params.minStep ≤ s.actCur.toInt
  cur_hi : s.actCur.toInt ≤ s.params.pulseLower + s.params.pulseInterval + s.params.minStep

theorem State.Inv.actRange {s : State} (h : s.Inv) : s.ActRange := ⟨h.actCmd_lo, h.actCmd_hi, h.actCur_lo, h.actCur_hi⟩

theorem State.ActRange.of_same {s t : State} (h : s.ActRange) (params : t.params = s.params) (cmd : t.actCmd = s.actCmd)
    (cur : t.actCur = s.actCur) : t.ActRange := by
  obtain ⟨cmdLo, cmdHi, curLo, curHi⟩ := h
  constructor <;> simpa only [params, cmd, cur]

theorem State.ActRange.command {s : State} (hp : Admissible s.params) (h : s.ActRange) (angle : Int) :
    (s.command angle).ActRange := by
  obtain ⟨lo, hi⟩ := a2p_range hp angle
  have pulse : (s.command angle).actCmd.toInt = a2p s.params angle := toInt_store_a2p hp angle
  exact ⟨pulse ▸ lo, pulse ▸ hi, h.cur_lo, h.cur_hi⟩

theorem State.ActRange.commandIf {s : State} (hp : Admissible s.params) (h : s.ActRange) (coupled : Bool) (angle : Int) :
    (s.commandIf coupled angle).ActRange := by
  obtain ⟨_, e⟩ | ⟨_, e⟩ := commandIf_cases s coupled angle
  · rw [e]
    exact h.command hp angle
  · rwa [e]

/-- R61's argument: a move that overshoots ends less than MIN_STEP past ACT_CMD, any other between ACT_CUR and ACT_CMD. -/
theorem State.ActRange.moved {s : State} (hp : Admissible s.params) (h : s.ActRange) (far : 17 ≤ s.residual.natAbs) :
    s.params.pulseLower - s.params.minStep ≤ s.actCur.toInt + moveDelta s.params s.residual ∧
      s.actCur.toInt + moveDelta s.params s.residual ≤
        s.params.pulseLower + s.params.pulseInterval + s.params.minStep := by
  obtain ⟨_, _, _, _, minStep, _⟩ := (admissible_iff _).1 hp
  obtain ⟨cmdLo, cmdHi, curLo, curHi⟩ := h
  have way : s.residual = s.actCmd.toInt - s.actCur.toInt := rfl
  obtain ⟨up, _⟩ | ⟨down, _⟩ := direction_cases far
  · have := moveDelta_of_pos s.params up
    omega
  · have := moveDelta_of_neg s.params down
    omega

/-- So ACT_CUR takes the sum without wrap. -/
theorem State.ActRange.toInt_moved {s : State} (hp : Admissible s.params) (h : s.ActRange)
    (far : 17 ≤ s.residual.natAbs) :
    (store 32 (s.actCur.toInt + moveDelta s.params s.residual)).toInt =
      s.actCur.toInt + moveDelta s.params s.residual := by
  obtain ⟨lower, _, _, _, minStep, _, _, _, sum⟩ := (admissible_iff _).1 hp
  obtain ⟨lo, hi⟩ := h.moved hp far
  exact toInt_store32 (by omega) (by omega)

theorem State.ActRange.movePulse {s : State} (hp : Admissible s.params) (h : s.ActRange)
    (far : 17 ≤ s.residual.natAbs) : (s.movePulse (moveDelta s.params s.residual)).ActRange := by
  obtain ⟨lo, hi⟩ := h.moved hp far
  have pulse := h.toInt_moved hp far
  exact ⟨h.cmd_lo, h.cmd_hi, by rwa [State.movePulse_actCur, pulse], by rwa [State.movePulse_actCur, pulse]⟩

theorem State.ActRange.residual_movePulse {s : State} (hp : Admissible s.params) (h : s.ActRange)
    (far : 17 ≤ s.residual.natAbs) :
    (s.movePulse (moveDelta s.params s.residual)).residual = s.residual - moveDelta s.params s.residual := by
  rw [State.residual, State.movePulse_actCur, h.toInt_moved hp far, State.movePulse_actCmd]
  simp only [State.residual]
  ring

/-! ACT.ADV by the size of the residual (41_actuator.md R60). -/

theorem exec_actAdv_of_le {s : State} (h : s.residual.natAbs ≤ 16) : exec .actAdv s = .next s := by
  obtain ⟨_, e⟩ | ⟨_, moves, _⟩ := execActAdv_cases s
  · exact e
  · exact absurd ((pdelta_eq_zero_iff _ _).2 h) moves

theorem exec_actAdv_of_ge {s : State} (h : 17 ≤ s.residual.natAbs) :
    exec .actAdv s = .next (s.movePulse (moveDelta s.params s.residual)) := by
  obtain ⟨still, _⟩ | ⟨_, _, e⟩ := execActAdv_cases s
  · have := pdelta_eq_zero_iff s.params.roundTie s.residual
    omega
  · exact e

/-- The two outcomes of ACT.ADV. -/
theorem exec_actAdv_cases (s : State) :
    (s.residual.natAbs ≤ 16 ∧ exec .actAdv s = .next s) ∨
      (17 ≤ s.residual.natAbs ∧ exec .actAdv s = .next (s.movePulse (moveDelta s.params s.residual))) := by
  obtain near | far := Nat.lt_or_ge s.residual.natAbs 17
  · exact .inl ⟨by omega, exec_actAdv_of_le (by omega)⟩
  · exact .inr ⟨far, exec_actAdv_of_ge far⟩

/-! What every step keeps (41_actuator.md R61). -/

/-- The part of `State.Inv` that speaks of SEQ. -/
structure State.SeqRange (s : State) : Prop where
  cfgTicks : s.cfgTicks ≠ 0
  seqT : s.seqT ≠ 0

/-- The part of `State.Inv` that speaks of DSP. -/
structure State.DspRange (s : State) : Prop where
  freq : s.dspFreq ≠ 0
  acc : s.dspAcc.toNat ≤ 999999
  off_phase : s.dspBlink.en = false → s.dspBlink.phase = true
  off_acc : s.dspBlink.en = false → s.dspAcc = 0

/-- The invariant, unit by unit. -/
theorem State.inv_iff (s : State) : s.Inv ↔ s.ActRange ∧ s.SeqRange ∧ s.DspRange := by
  constructor
  · intro h
    exact ⟨h.actRange, ⟨h.cfgTicks_pos, h.seqT_pos⟩, h.dspFreq_pos, h.dspAcc_le, h.blinkOff_phase, h.blinkOff_acc⟩
  · rintro ⟨⟨cmdLo, cmdHi, curLo, curHi⟩, ⟨cfgTicks, seqT⟩, freq, acc, offPhase, offAcc⟩
    exact ⟨cmdLo, cmdHi, curLo, curHi, cfgTicks, seqT, freq, acc, offPhase, offAcc⟩

theorem State.SeqRange.of_same {s t : State} (h : s.SeqRange) (cfgTicks : t.cfgTicks = s.cfgTicks)
    (seqT : t.seqT = s.seqT) : t.SeqRange := ⟨cfgTicks ▸ h.cfgTicks, seqT ▸ h.seqT⟩

theorem State.DspRange.of_same {s t : State} (h : s.DspRange) (blink : t.dspBlink = s.dspBlink)
    (freq : t.dspFreq = s.dspFreq) (acc : t.dspAcc = s.dspAcc) : t.DspRange := by
  obtain ⟨freqPos, accLe, offPhase, offAcc⟩ := h
  constructor <;> simpa only [blink, freq, acc]

theorem State.SeqRange.commandIf {s : State} (h : s.SeqRange) (coupled : Bool) (angle : Int) :
    (s.commandIf coupled angle).SeqRange := by
  obtain ⟨_, e⟩ | ⟨_, e⟩ := commandIf_cases s coupled angle
  · rw [e]
    exact h.of_same rfl rfl
  · rwa [e]

/-- ACT.ADV moves within R61's range; ACT.TGT and the coupled forms command a pulse of some angle; no other command writes
a register of ACT. -/
theorem exec_keeps_actRange {i : Instr} {s t : State} (h : exec i s = .next t) (hp : Admissible s.params)
    (range : s.ActRange) : t.ActRange := by
  have other (foreign : unitOf i ≠ some .act) (uncoupled : isCoupled i = false) : t.ActRange := by
    obtain ⟨act, _, _, _, _, params, _⟩ := respectsUnits_of_exec h
    obtain ⟨cmd, cur, _⟩ := act foreign uncoupled
    exact range.of_same params cmd cur
  cases i with
  | actTgt angle =>
    obtain rfl := Host.Outcome.next.inj h
    exact range.command hp angle
  | actAdv =>
    obtain ⟨_, e⟩ | ⟨far, e⟩ := exec_actAdv_cases s
    · obtain rfl := Host.Outcome.next.inj (e.symm.trans h)
      exact range
    · obtain rfl := Host.Outcome.next.inj (e.symm.trans h)
      exact range.movePulse hp far
  | seqRst c =>
    obtain rfl := Host.Outcome.next.inj h
    refine State.ActRange.commandIf ?_ ?_ c _
    · exact hp
    · exact range.of_same rfl rfl rfl
  | seqAdv c =>
    obtain ⟨_, e⟩ | ⟨_, u, _, e, _, _, _, params, cmd, cur, _⟩ := execSeqAdv_cases c s
    · obtain rfl := Host.Outcome.next.inj (e.symm.trans h)
      exact range.of_same rfl rfl rfl
    · obtain rfl := Host.Outcome.next.inj (e.symm.trans h)
      refine State.ActRange.commandIf ?_ ?_ c _
      · rwa [params]
      · exact range.of_same params cmd cur
  | _ => exact other nofun rfl

/-- SEQ.CFG rejects a zero tick count. -/
theorem execSeqCfg_keeps_seqRange {sel : CfgSel} {imm : Word32} {s t : State} (h : execSeqCfg sel imm s = .next t)
    (range : s.SeqRange) : t.SeqRange := by
  obtain ⟨_, e⟩ | ⟨_, e⟩ | ⟨_, nonzero, e⟩ | ⟨_, e⟩ | ⟨_, e⟩ := execSeqCfg_cases sel imm s
  case inr.inr.inl =>
    obtain rfl := Host.Outcome.next.inj (e.symm.trans h)
    refine ⟨?_, range.seqT⟩
    rwa [store, BitVec.ofInt_natCast, ofNat_zext32]
  all_goals
    obtain rfl := Host.Outcome.next.inj (e.symm.trans h)
    exact range.of_same rfl rfl

theorem execSeqAdv_keeps_seqRange {c : Bool} {s t : State} (h : execSeqAdv c s = .next t) (range : s.SeqRange) :
    t.SeqRange := by
  unfold execSeqAdv at h
  split at h
  · obtain rfl := Host.Outcome.next.inj h
    exact range.of_same rfl rfl
  · obtain rfl := Host.Outcome.next.inj h
    refine State.SeqRange.commandIf ?_ c _
    exact range.of_same rfl rfl

/-- SEQ.RST latches the pending tick count into SEQ_T, and SEQ.CFG keeps that count from being zero. -/
theorem exec_keeps_seqRange {i : Instr} {s t : State} (h : exec i s = .next t) (range : s.SeqRange) : t.SeqRange := by
  have other (foreign : unitOf i ≠ some .seq) : t.SeqRange := by
    obtain ⟨_, _, seq, _, _⟩ := respectsUnits_of_exec h
    obtain ⟨_, _, cfgTicks, _, _, _, seqT, _⟩ := seq foreign
    exact range.of_same cfgTicks seqT
  cases i with
  | seqCfg sel imm => exact execSeqCfg_keeps_seqRange h range
  | seqRst c =>
    obtain rfl := Host.Outcome.next.inj h
    refine State.SeqRange.commandIf ?_ c _
    exact ⟨range.cfgTicks, range.cfgTicks⟩
  | seqAdv c => exact execSeqAdv_keeps_seqRange h range
  | _ => exact other nofun

theorem execDspCol_keeps_dspRange {rgb : Word32} {s t : State} (h : execDspCol rgb s = .next t) (range : s.DspRange) :
    t.DspRange := by
  unfold execDspCol at h
  split at h
  all_goals
    obtain rfl := Host.Outcome.next.inj h
    exact range.of_same rfl rfl rfl

theorem execDspRnd_keeps_dspRange {value : Int} {s t : State} (h : execDspRnd value s = .next t) (range : s.DspRange) :
    t.DspRange := by
  unfold execDspRnd at h
  split at h
  all_goals
    obtain rfl := Host.Outcome.next.inj h
    exact range.of_same rfl rfl rfl

/-- A number inside the field is stored as it is, so one that is not zero stays so. -/
theorem store32_natCast_ne_zero {n : Nat} (fits : n < 2 ^ 32) (nonzero : n ≠ 0) : store 32 (n : Int) ≠ 0 := by
  intro zero
  have back := toNat_store fits
  rw [zero] at back
  exact nonzero back.symm

/-- Off clears the timer and sets the phase; on rejects frequency 0, and the timer it keeps is one that ran before. -/
theorem execDspBlk_keeps_dspRange {en : Bool} {mhz : Nat} {s t : State} (h : execDspBlk en mhz s = .next t)
    (fits : mhz < 2 ^ 32) (range : s.DspRange) : t.DspRange := by
  obtain ⟨_, e⟩ | ⟨_, _, e⟩ | ⟨_, nonzero, e⟩ := execDspBlk_cases en mhz s
  · obtain rfl := Host.Outcome.next.inj (e.symm.trans h)
    exact ⟨range.freq, Nat.zero_le _, fun _ => rfl, fun _ => rfl⟩
  · obtain rfl := Host.Outcome.next.inj (e.symm.trans h)
    exact range
  · obtain rfl := Host.Outcome.next.inj (e.symm.trans h)
    refine ⟨store32_natCast_ne_zero fits nonzero, ?_, nofun, nofun⟩
    cases s.dspBlink.en with
    | true => exact range.acc
    | false => exact Nat.zero_le _

theorem execDspAdv_cases (dt : Nat) (s : State) :
    (s.dspBlink.en = false ∧ execDspAdv dt s = .next s) ∨
    (s.dspBlink.en = true ∧ execDspAdv dt s = .next { s with
      dspAcc := store 20 (((s.dspAcc.toNat + dt * s.dspFreq.toNat) % accPerToggle : Nat) : Int)
      dspBlink := s.dspBlink.toggled ((s.dspAcc.toNat + dt * s.dspFreq.toNat) / accPerToggle) }) := by
  unfold execDspAdv
  cases s.dspBlink.en <;> simp

/-- The timer keeps a remainder by 1,000,000, and runs only while the blink is on. -/
theorem execDspAdv_keeps_dspRange {dt : Nat} {s t : State} (h : execDspAdv dt s = .next t) (range : s.DspRange) :
    t.DspRange := by
  obtain ⟨_, e⟩ | ⟨on, e⟩ := execDspAdv_cases dt s
  · obtain rfl := Host.Outcome.next.inj (e.symm.trans h)
    exact range
  · obtain rfl := Host.Outcome.next.inj (e.symm.trans h)
    have rest : (s.dspAcc.toNat + dt * s.dspFreq.toNat) % accPerToggle < 1000000 := Nat.mod_lt _ (by decide)
    refine ⟨range.freq, ?_, fun off => absurd (on.symm.trans off) nofun, fun off => absurd (on.symm.trans off) nofun⟩
    rw [toNat_store (by omega)]
    omega

theorem exec_keeps_dspRange {i : Instr} {s t : State} (h : exec i s = .next t) (wf : i.wellFormed = true)
    (range : s.DspRange) : t.DspRange := by
  have other (foreign : unitOf i ≠ some .dsp) : t.DspRange := by
    obtain ⟨_, _, _, dsp, _⟩ := respectsUnits_of_exec h
    obtain ⟨_, _, blink, freq, acc⟩ := dsp foreign
    exact range.of_same blink freq acc
  cases i with
  | dspCol rgb => exact execDspCol_keeps_dspRange h range
  | dspBlk en mhz => exact execDspBlk_keeps_dspRange h ((inUnsigned32_iff mhz).1 wf) range
  | dspRnd value => exact execDspRnd_keeps_dspRange h range
  | dspAdv dt => exact execDspAdv_keeps_dspRange h range
  | _ => exact other nofun

/-- A command whose operands fit its word keeps the invariant. -/
theorem exec_keeps_inv {i : Instr} {s t : State} (h : exec i s = .next t) (hp : Admissible s.params)
    (wf : i.wellFormed = true) (inv : s.Inv) : t.Inv := by
  obtain ⟨act, seq, dsp⟩ := (State.inv_iff s).1 inv
  exact (State.inv_iff t).2
    ⟨exec_keeps_actRange h hp act, exec_keeps_seqRange h seq, exec_keeps_dspRange h wf dsp⟩

/-- STATUS, the coming inputs and the events are in no range fact. -/
theorem State.Inv.withUnranged {s : State} (h : s.Inv) (input : List PortSample) (status : Status) (events : List Event) :
    State.Inv { s with input := input, status := status, events := events } := by
  obtain ⟨act, seq, dsp⟩ := (State.inv_iff s).1 h
  exact (State.inv_iff _).2 ⟨act.of_same rfl rfl rfl, seq.of_same rfl rfl, dsp.of_same rfl rfl rfl⟩

/-- Settles O21: by what a step can do. Idle and illegal inputs write no register of the invariant, RST restores it, and a
decoded command keeps it, its operands being those of a word. -/
theorem stepKeepsInv : Obligations.StepKeepsInv := by
  intro s t inv h
  obtain ⟨hp, ⟨_, rfl⟩ | ⟨x, rest, _, outcome⟩⟩ := step_cases h
  · exact ⟨inv, rfl⟩
  obtain ⟨_, rfl⟩ | ⟨_, _, rfl⟩ | ⟨_, _, ⟨i, decoded, run⟩ | ⟨_, _, rfl⟩⟩ := outcome
  · exact ⟨(invHoldsAtReset s.params hp).withUnranged rest _ s.events, rfl⟩
  · exact ⟨inv.withUnranged rest s.status s.events, rfl⟩
  · obtain ⟨_, _, _, _, _, params, _⟩ := respectsUnits_of_exec run
    obtain ⟨wf, _⟩ := encode_of_decode decoded
    exact ⟨exec_keeps_inv run hp wf (inv.withUnranged rest s.status s.events), params⟩
  · exact ⟨inv.withUnranged rest _ s.events, rfl⟩

/-! ACT.TGT (41_actuator.md R59). -/

theorem decode_actTgt (imm : Word32) : decode (0x10#8 ++ 0#8 ++ 0#16 ++ imm) = .ok (.actTgt imm.toInt) := by
  have word : encode (.actTgt (sext32 imm)) = 0x10#8 ++ 0#8 ++ 0#16 ++ imm :=
    encode_eq_of_fields (opcField_append _ _ _ _) (fnField_append _ _ _ _) (rsvField_append _ _ _ _)
      ((immField_append _ _ _ _).trans (ofInt_sext32 imm).symm)
  exact word ▸ decode_encode (inSigned32_sext32 imm)

theorem exec_actTgt (angle : Int) (s : State) : exec (.actTgt angle) s = .next (s.command angle) := rfl

/-- Commanding the pulse that ACT_CMD holds changes nothing. -/
theorem State.command_eq_self {s : State} {angle : Int} (h : s.actCmd = store 32 (a2p s.params angle)) :
    s.command angle = s := by
  rw [State.command, ← h]

/-- An arrived ACT_CUR does not move. -/
theorem exec_actAdv_of_eq {s : State} (h : s.actCmd = s.actCur) : exec .actAdv s = .next s :=
  exec_actAdv_of_le (by simp [State.residual, h])

/-- Settles O27: ACT.TGT is one write, of a pulse that R57 gives. -/
theorem actTgtSetsCommand : Obligations.ActTgtSetsCommand := by
  refine ⟨decode_actTgt, fun s angle => ⟨rfl, a2p_of_nonpos, fun hp => a2p_of_maxAngle_le hp,
    fun hp => toInt_store_a2p hp angle, fun same => ?_, fun t _ => exec_actAdv_of_eq⟩,
    fun s lower interval maxAngle => ?_⟩
  · rw [exec_actTgt, State.command_eq_self same]
  · have pulse : a2p s.params 90 = 2000 := by simp [a2p, lower, interval, maxAngle]
    rw [exec_actTgt, State.command, pulse]
    rfl

/-! ACT.ADV (41_actuator.md R60, R62). -/

/-- Settles O28: no move up to 16; beyond, `moveDelta`, whose clamp is in the residual's direction. -/
theorem actAdvMovesPulse : Obligations.ActAdvMovesPulse := by
  refine ⟨decode_encode (i := .actAdv) rfl, fun s => ⟨exec_actAdv_of_le, fun far => ?_⟩⟩
  refine ⟨moveDelta s.params s.residual, fun small => ?_, fun large => ?_, exec_actAdv_of_ge far,
    fun hp inv => inv.actRange.toInt_moved hp far⟩
  · rw [moveDelta, atLeastMinStep, if_pos small, sign_pdelta s.params.roundTie far]
  · rw [moveDelta, atLeastMinStep, if_neg large.not_gt]

/-- Settles O29: a residual up to 16 stays; a longer one loses `moveDelta`, whose direction it is. -/
theorem actAdvProgress : Obligations.ActAdvProgress := by
  intro s hp inv
  obtain ⟨near, still⟩ | ⟨far, moved⟩ := exec_actAdv_cases s
  · exact ⟨s, still, fun _ => rfl, by omega, by omega, fun change => absurd rfl change, fun _ => near, fun _ => still⟩
  have range := inv.actRange
  have sum := range.toInt_moved hp far
  have direction := sign_moveDelta s.params far
  refine ⟨_, moved, by omega, ?_⟩
  rw [range.residual_movePulse hp far, State.movePulse_actCur, sum, add_sub_cancel_left]
  refine ⟨residual_progress s.params, fun _ near => ?_, fun _ => direction, fun same => ?_, exec_actAdv_of_le⟩
  · rw [moveDelta_overshoot s.params far near]
    exact ⟨rfl, natAbs_overshoot far near⟩
  · have stay := Host.Outcome.next.inj (moved.symm.trans same)
    have cur : (s.movePulse (moveDelta s.params s.residual)).actCur.toInt = s.actCur.toInt := by rw [stay]
    rw [State.movePulse_actCur, sum, add_eq_left] at cur
    rw [cur, Int.sign_zero, eq_comm, Int.sign_eq_zero_iff_zero] at direction
    omega

/-! Runs of ACT.ADV (41_actuator.md R63). -/

theorem execAll_replicate_succ {i : Instr} {s t : State} (h : exec i s = .next t) (n : Nat) :
    execAll (List.replicate (n + 1) i) s = execAll (List.replicate n i) t := by
  rw [List.replicate_succ, execAll, h]

/-- With MIN_STEP <= 33 every move shrinks the residual, so a run comes to rest. -/
theorem actAdv_settles {s : State} (range : s.ActRange) (hp : Admissible s.params) (m : s.params.minStep ≤ 33) :
    ∃ (n : Nat) (t : State), execAll (List.replicate n .actAdv) s = .next t ∧ exec .actAdv t = .next t := by
  induction size : s.residual.natAbs using Nat.strong_induction_on generalizing s with
  | _ k ih =>
    obtain ⟨_, still⟩ | ⟨far, moved⟩ := exec_actAdv_cases s
    · exact ⟨0, s, rfl, still⟩
    have shrinks := residual_shrinks m far
    rw [← range.residual_movePulse hp far, size] at shrinks
    obtain ⟨n, t, run, rest⟩ := ih _ shrinks (range.movePulse hp far) hp m rfl
    exact ⟨n + 1, t, (execAll_replicate_succ moved n).trans run, rest⟩

/-- Inside the window 17 .. MIN_STEP - 17 every advance overshoots back into the window, on the other side. -/
theorem actAdv_oscillates (n : Nat) {s : State} (range : s.ActRange) (hp : Admissible s.params)
    (far : 17 ≤ s.residual.natAbs) (near : (s.residual.natAbs : Int) ≤ s.params.minStep - 17) :
    ∃ t, execAll (List.replicate n .actAdv) s = .next t ∧
      t.residual = (if n % 2 = 0 then s.residual else s.residual - s.residual.sign * s.params.minStep) ∧
      17 ≤ t.residual.natAbs ∧ (t.residual.natAbs : Int) < s.params.minStep ∧
      t.events.length = s.events.length + n := by
  induction n generalizing s with
  | zero => exact ⟨s, rfl, rfl, far, by omega, rfl⟩
  | succ n ih =>
    have short : s.residual.natAbs < s.params.minStep := by omega
    have moved := exec_actAdv_of_ge far
    have rangeNext := range.movePulse hp far
    have next := range.residual_movePulse hp far
    rw [moveDelta_overshoot s.params far short] at moved rangeNext next
    have width := natAbs_overshoot far short
    have back := overshoot_overshoot far short
    rw [← next] at width back
    obtain ⟨t, run, residual, lo, hi, events⟩ := ih rangeNext hp (by omega) (by rw [State.movePulse_params]; omega)
    refine ⟨t, (execAll_replicate_succ moved n).trans run, ?_, lo, hi, ?_⟩
    · rw [residual, State.movePulse_params, back, next]
      obtain even | odd := Nat.mod_two_eq_zero_or_one n
      · rw [if_pos even, if_neg (by omega)]
      · rw [if_neg (by omega), if_pos (by omega)]
    · rw [events, State.movePulse_events, List.length_append, List.length_singleton]
      omega

/-- Settles O30: `actAdv_settles`, and in the window `actAdv_oscillates`; that MIN_STEP is at least 34 follows from the
window. -/
theorem actAdvSettlesOrOscillates : Obligations.ActAdvSettlesOrOscillates :=
  ⟨fun _ hp inv => actAdv_settles inv.actRange hp,
    fun _ hp inv _ far near n => actAdv_oscillates n inv.actRange hp far near⟩

end Sys2Proof.Machine

/-! Proofs of the statements of 42_sequencer.md: SEQ.CFG (R65), SEQ.RST (R66), SEQ.ADV (R67), and the walk they make
from one SEQ.RST on (R68, R69, 70_reset_and_hazards.md R104). -/

namespace Sys2Proof.Machine

/-! Words and flags. -/

theorem store_toInt {w : Nat} (x : BitVec w) : store w x.toInt = x := BitVec.ofInt_toInt

theorem store32_sext32 (v : Word32) : store 32 (sext32 v) = v := ofInt_sext32 v

theorem store32_zext32 (v : Word32) : store 32 (zext32 v) = v := by
  rw [store, BitVec.ofInt_natCast, ofNat_zext32]

theorem ofNat_eq_iff_of_lt {v : Nat} {x : Word32} (h : v < 2 ^ 32) : BitVec.ofNat 32 v = x ↔ v = x.toNat := by
  rw [← BitVec.toNat_inj, BitVec.toNat_ofNat, Nat.mod_eq_of_lt h]

theorem toNat_pos {x : Word32} (h : x ≠ 0) : 0 < x.toNat :=
  Nat.pos_of_ne_zero fun zero => h (BitVec.eq_of_toNat_eq zero)

theorem xor_decide (b : Bool) (p : Prop) [Decidable p] : (b ^^ decide p) = if p then !b else b := by
  split <;> simp [*]

theorem not_decide_eq {p q : Prop} [Decidable p] [Decidable q] (h : ¬p ↔ q) : (!decide p) = decide q := by
  rw [← decide_not]
  exact decide_eq_decide.2 h

/-! Runs. -/

theorem execAll_append {is : List Instr} {s t : State} (run : execAll is s = .next t) (js : List Instr) :
    execAll (is ++ js) s = execAll js t := by
  induction is generalizing s with
  | nil =>
    obtain rfl := Host.Outcome.next.inj run
    rfl
  | cons i is ih =>
    obtain ⟨u, first, _⟩ := exec_next i s
    rw [execAll, first] at run
    rw [List.cons_append, execAll, first]
    exact ih run

/-- A run of n + 1 is a run of n and one more. -/
theorem execAll_replicate_snoc {i : Instr} {s t u : State} {n : Nat} (run : execAll (List.replicate n i) s = .next t)
    (last : exec i t = .next u) : execAll (List.replicate (n + 1) i) s = .next u := by
  rw [List.replicate_succ', execAll_append run, execAll, last]
  rfl

/-! SEQ.CFG (42_sequencer.md R65). -/

/-- Settles O31: an immediate, read signed or unsigned, is stored as the word it was. -/
theorem seqCfgWritesPending : Obligations.SeqCfgWritesPending := by
  refine ⟨decode_encode (i := .seqCfg .upper 180) rfl, fun s imm => ⟨?_, ?_, fun nonzero => ?_, rfl, ?_, fun _ => rfl⟩⟩
  · rw [exec, execSeqCfg, store32_sext32]
  · rw [exec, execSeqCfg, store32_sext32]
  · rw [exec, execSeqCfg, if_neg nonzero, store32_zext32]
  · rw [exec, execSeqCfg, store32_zext32]

/-! SEQ.RST (42_sequencer.md R66). -/

/-- A signed 32-bit number times an unsigned one fits 64 bits. -/
theorem toInt_mul_toNat_range (x y : Word32) : -2 ^ 63 ≤ x.toInt * y.toNat ∧ x.toInt * y.toNat < 2 ^ 63 := by
  obtain ⟨lo, hi⟩ := toInt_range32 x
  have top : (y.toNat : Int) < 2 ^ 32 := by exact_mod_cast y.isLt
  have nonneg : (0 : Int) ≤ y.toNat := by positivity
  constructor <;> nlinarith

/-- Settles O32: SEQ_L * SEQ_T fits SEQ_ACC. -/
theorem seqRstStartsSweep : Obligations.SeqRstStartsSweep := by
  refine ⟨decode_encode (i := .seqRst false) rfl, decode_encode (i := .seqRst true) rfl, fun s c => ?_⟩
  obtain ⟨lo, hi⟩ := toInt_mul_toNat_range s.cfgLower s.cfgTicks
  refine ⟨store 96 (s.cfgLower.toInt * s.cfgTicks.toNat), toInt_store96 (by omega) (by omega), ?_⟩
  cases c <;> rfl

/-! SEQ.ADV (42_sequencer.md R67). -/

theorem exec_seqAdv_of_done {s : State} (c : Bool) (done : s.seqFlags.done = true) :
    exec (.seqAdv c) s = .next { s with seqFlags := { s.seqFlags with valid := false } } := by
  rw [exec, execSeqAdv, if_pos done, SeqFlags.none]

/-- The flags of a SEQ.ADV that returns `r`, the count after a lower-bound visit being `visited`. -/
theorem advanced_eq {f : SeqFlags} (running : f.done = false) (r l u : Int) (visited cyc target : Word32) :
    f.advanced (decide (r = u) || decide (r = l))
        (decide (r = l) && decide ((if r = l then visited else cyc) = target)) =
      { dir := if r = u ∨ r = l then !f.dir else f.dir
        done := decide (r = l ∧ visited = target)
        valid := true } := by
  by_cases lower : r = l
  · simp [SeqFlags.advanced, running, lower]
  · simp [SeqFlags.advanced, running, lower, xor_decide]

/-- The state a running SEQ.ADV leaves, field by field. -/
theorem exec_seqAdv_of_running {s : State} (c : Bool) (running : s.seqFlags.done = false) :
    exec (.seqAdv c) s = .next { s with
      seqAcc := s.nextAcc
      seqFlags :=
        { dir := if s.roundedAt s.nextAcc = s.seqU.toInt ∨ s.roundedAt s.nextAcc = s.seqL.toInt
                 then !s.seqFlags.dir else s.seqFlags.dir
          done := decide (s.roundedAt s.nextAcc = s.seqL.toInt ∧ s.seqCyc + 1 = s.seqN)
          valid := true }
      seqCyc := if s.roundedAt s.nextAcc = s.seqL.toInt then s.seqCyc + 1 else s.seqCyc
      seqOut := store 32 (s.roundedAt s.nextAcc)
      actCmd := if c then store 32 (a2p s.params (store 32 (s.roundedAt s.nextAcc)).toInt) else s.actCmd } := by
  have count : store 32 ((s.seqCyc.toNat : Int) + 1) = s.seqCyc + 1 := by
    simp [store, BitVec.ofInt_add]
  simp only [exec, execSeqAdv, running, Bool.false_eq_true, if_false, count, advanced_eq running, decide_eq_true_eq]
  cases c <;> rfl

/-- Settles O33: the two equations above. -/
theorem seqAdvNextPosition : Obligations.SeqAdvNextPosition :=
  ⟨decode_encode (i := .seqAdv false) rfl, decode_encode (i := .seqAdv true) rfl,
    fun _ c => ⟨exec_seqAdv_of_done c, exec_seqAdv_of_running c⟩⟩

/-! The positions of the walk a SEQ.RST would start (42_sequencer.md R64, R68): `plannedPos k` is round_tie(p_k). -/

/-- 2^62 steps of less than 2^33 each, from less than 2^63, stay inside SEQ_ACC. -/
theorem State.plannedAcc_range (s : State) {k : Nat} (hk : k ≤ 2 ^ 62) :
    -2 ^ 95 ≤ s.plannedAcc k ∧ s.plannedAcc k < 2 ^ 95 := by
  obtain ⟨startLo, startHi⟩ := toInt_mul_toNat_range s.cfgLower s.cfgTicks
  obtain ⟨lowerLo, lowerHi⟩ := toInt_range32 s.cfgLower
  obtain ⟨upperLo, upperHi⟩ := toInt_range32 s.cfgUpper
  have nonneg : (0 : Int) ≤ k := by positivity
  have le : (k : Int) ≤ 2 ^ 62 := by exact_mod_cast hk
  have walkHi : k * (2 * (s.cfgUpper.toInt - s.cfgLower.toInt)) ≤ 2 ^ 62 * (2 ^ 33 - 2) := by nlinarith
  have walkLo : -(2 ^ 62 * (2 ^ 33 - 2)) ≤ k * (2 * (s.cfgUpper.toInt - s.cfgLower.toInt)) := by nlinarith
  unfold State.plannedAcc
  omega

theorem State.plannedAcc_succ (s : State) (k : Int) :
    s.plannedAcc (k + 1) = s.plannedAcc k + 2 * (s.cfgUpper.toInt - s.cfgLower.toInt) := by
  unfold State.plannedAcc
  ring

/-- The walk starts exactly at the lower bound. -/
theorem State.plannedPos_zero {s : State} (ticks : s.cfgTicks ≠ 0) : s.plannedPos 0 = s.cfgLower.toInt := by
  rw [State.plannedPos, State.plannedAcc, zero_mul, add_zero, roundTie_mul _ _ _ (Int.natCast_pos.2 (toNat_pos ticks))]

/-- An exact position is within a half of its rounded one. -/
theorem State.plannedAcc_near {s : State} (ticks : s.cfgTicks ≠ 0) (k : Int) :
    2 * (s.plannedAcc k - s.cfgTicks.toNat * s.plannedPos k) ≤ s.cfgTicks.toNat ∧
    -s.cfgTicks.toNat ≤ 2 * (s.plannedAcc k - s.cfgTicks.toNat * s.plannedPos k) :=
  roundTie_close _ _ _ (Int.natCast_pos.2 (toNat_pos ticks))

/-- A position that rounds to the lower bound has walked at most a half. -/
theorem State.steps_of_at_lower {s : State} (ticks : s.cfgTicks ≠ 0) {k : Int}
    (lower : s.plannedPos k = s.cfgLower.toInt) :
    4 * (k.natAbs * (s.cfgUpper.toInt - s.cfgLower.toInt).natAbs) ≤ s.cfgTicks.toNat := by
  have near := s.plannedAcc_near ticks k
  have walked : s.plannedAcc k - s.cfgTicks.toNat * s.cfgLower.toInt =
      2 * (k * (s.cfgUpper.toInt - s.cfgLower.toInt)) := by unfold State.plannedAcc; ring
  rw [lower, walked] at near
  rw [← Int.natAbs_mul]
  omega

/-- A position that rounds to the upper bound is at most a half off it: k is near SEQ_T / 2. -/
theorem State.steps_of_at_upper {s : State} (ticks : s.cfgTicks ≠ 0) {k : Int}
    (upper : s.plannedPos k = s.cfgUpper.toInt) :
    2 * ((2 * k - s.cfgTicks.toNat).natAbs * (s.cfgUpper.toInt - s.cfgLower.toInt).natAbs) ≤ s.cfgTicks.toNat := by
  have near := s.plannedAcc_near ticks k
  have left : s.plannedAcc k - s.cfgTicks.toNat * s.cfgUpper.toInt =
      (2 * k - s.cfgTicks.toNat) * (s.cfgUpper.toInt - s.cfgLower.toInt) := by unfold State.plannedAcc; ring
  rw [upper, left] at near
  rw [← Int.natAbs_mul]
  omega

/-- The rounded positions go in one direction: from one step to a later one up if SEQ_L ≤ SEQ_U, else down. -/
theorem State.plannedPos_monotone {s : State} (ticks : s.cfgTicks ≠ 0) {i k : Int} (le : i ≤ k) :
    (s.cfgLower.toInt ≤ s.cfgUpper.toInt → s.plannedPos i ≤ s.plannedPos k) ∧
    (s.cfgUpper.toInt ≤ s.cfgLower.toInt → s.plannedPos k ≤ s.plannedPos i) := by
  have pos : (0 : Int) < s.cfgTicks.toNat := Int.natCast_pos.2 (toNat_pos ticks)
  constructor
  · intro up
    have := mul_le_mul_of_nonneg_right le (sub_nonneg.2 up)
    exact roundTie_mono _ pos (by unfold State.plannedAcc; linarith)
  · intro down
    have := mul_le_mul_of_nonneg_right le (sub_nonneg.2 down)
    exact roundTie_mono _ pos (by unfold State.plannedAcc; linarith)

/-! The walk's states (42_sequencer.md R66, R67), each by its index k, direction, DONE and count of lower-bound
visits. -/

/-- The state of the walk from `s` at p_k. -/
def State.walkAt (s : State) (k : Nat) (dir done : Bool) (visits : Nat) : State :=
  { s with
    seqL := s.cfgLower
    seqU := s.cfgUpper
    seqT := s.cfgTicks
    seqN := s.cfgTarget
    seqAcc := store 96 (s.plannedAcc k)
    seqFlags := { dir := dir, done := done, valid := true }
    seqCyc := BitVec.ofNat 32 visits
    seqOut := store 32 (s.plannedPos k) }

theorem exec_seqRst_eq_walkAt {s : State} (ticks : s.cfgTicks ≠ 0) :
    exec (.seqRst false) s = .next (s.walkAt 0 false false 0) := by
  have out : store 32 (s.plannedPos (0 : Nat)) = s.cfgLower := by
    rw [Nat.cast_zero, State.plannedPos_zero ticks, store_toInt]
  have acc : s.plannedAcc (0 : Nat) = s.cfgLower.toInt * s.cfgTicks.toNat := by simp [State.plannedAcc]
  rw [State.walkAt, out, acc]
  rfl

/-- The index after an advance in direction `dir` from k to k'. -/
def IsNextIndex (dir : Bool) (k k' : Nat) : Prop := if dir then k = k' + 1 else k' = k + 1

theorem isNextIndex_decide {p : Prop} [Decidable p] {k k' : Nat} :
    IsNextIndex (decide p) k k' ↔ (p → k = k' + 1) ∧ (¬p → k' = k + 1) := by
  by_cases h : p <;> simp [IsNextIndex, h]

/-- SEQ_ACC moves by the exact step, whatever it holds modulo 2^96. -/
theorem State.nextAcc_walkAt {s : State} {k k' : Nat} {dir : Bool} (next : IsNextIndex dir k k') (done : Bool)
    (visits : Nat) : (s.walkAt k dir done visits).nextAcc = store 96 (s.plannedAcc k') := by
  have add (a d : Int) : store 96 ((store 96 a).toInt + d) = store 96 (a + d) :=
    (store_toInt_add _ d).trans (BitVec.ofInt_add _ _).symm
  cases dir with
  | false =>
    obtain rfl : k' = k + 1 := next
    rw [Nat.cast_add_one, s.plannedAcc_succ]
    exact add _ _
  | true =>
    obtain rfl : k = k' + 1 := next
    have back := add (s.plannedAcc (k' + 1 : Nat)) (-(2 * (s.cfgUpper.toInt - s.cfgLower.toInt)))
    rw [Nat.cast_add_one, s.plannedAcc_succ, add_neg_cancel_right, ← sub_eq_add_neg] at back
    rw [← back, ← s.plannedAcc_succ, ← Nat.cast_add_one]
    rfl

/-- One advance of a running walk to p_k', within 2^62 steps of its start. -/
theorem exec_seqAdv_walkAt (s : State) {k k' : Nat} {dir : Bool} (next : IsNextIndex dir k k') (fits : k' ≤ 2 ^ 62)
    (visits : Nat) :
    exec (.seqAdv false) (s.walkAt k dir false visits) = .next (s.walkAt k'
      (if s.plannedPos k' = s.cfgUpper.toInt ∨ s.plannedPos k' = s.cfgLower.toInt then !dir else dir)
      (decide (s.plannedPos k' = s.cfgLower.toInt ∧ BitVec.ofNat 32 (visits + 1) = s.cfgTarget))
      (if s.plannedPos k' = s.cfgLower.toInt then visits + 1 else visits)) := by
  obtain ⟨lo, hi⟩ := s.plannedAcc_range fits
  have rounded : (s.walkAt k dir false visits).roundedAt (store 96 (s.plannedAcc k')) = s.plannedPos k' := by
    rw [State.roundedAt, toInt_store96 lo hi]
    rfl
  have count : BitVec.ofNat 32 (if s.plannedPos k' = s.cfgLower.toInt then visits + 1 else visits) =
      if s.plannedPos k' = s.cfgLower.toInt then BitVec.ofNat 32 visits + 1 else BitVec.ofNat 32 visits := by
    split
    · exact BitVec.ofNat_add _ _
    · rfl
  rw [exec_seqAdv_of_running false rfl, State.nextAcc_walkAt next, rounded, BitVec.ofNat_add]
  unfold State.walkAt
  rw [count]
  rfl

/-! Escape (42_sequencer.md R68 (c)). -/

theorem escape_run {s : State}
    (never : ∀ k : Nat, 1 ≤ k → s.plannedPos k ≠ s.cfgLower.toInt ∧ s.plannedPos k ≠ s.cfgUpper.toInt) {k : Nat}
    (hk : k ≤ 2 ^ 62) :
    execAll (List.replicate k (.seqAdv false)) (s.walkAt 0 false false 0) = .next (s.walkAt k false false 0) := by
  induction k with
  | zero => rfl
  | succ k ih =>
    obtain ⟨notLower, notUpper⟩ := never (k + 1) (by omega)
    have last := exec_seqAdv_walkAt s (k := k) (k' := k + 1) (dir := false) rfl hk 0
    simp only [notLower, notUpper, or_self, false_and, decide_false, if_false] at last
    exact execAll_replicate_snoc (ih (by omega)) last

/-- Settles O38: no advance meets a bound, and 2^62 steps fit SEQ_ACC. -/
theorem sweepEscapes : Obligations.SweepEscapes := by
  intro s inv never
  refine ⟨_, exec_seqRst_eq_walkAt inv.cfgTicks_pos, fun k hk => ⟨_, escape_run never hk, ?_, rfl, rfl, rfl⟩⟩
  obtain ⟨lo, hi⟩ := s.plannedAcc_range hk
  exact toInt_store96 lo hi

/-! Stuck at the lower bound (42_sequencer.md R68 (b), R69). -/

theorem stuck_at_lower {s : State} (ticks : s.cfgTicks ≠ 0) (stuck : s.plannedPos 1 = s.cfgLower.toInt) (m : Nat) :
    s.plannedPos (m % 2 : Nat) = s.cfgLower.toInt := by
  obtain even | odd := Nat.mod_two_eq_zero_or_one m
  · rw [even, Nat.cast_zero, State.plannedPos_zero ticks]
  · rw [odd, Nat.cast_one, stuck]

/-- The index goes to and fro between 0 and 1, both positions at the lower bound. -/
theorem stuck_run {s : State} (ticks : s.cfgTicks ≠ 0) (stuck : s.plannedPos 1 = s.cfgLower.toInt) {m : Nat}
    (hm : m ≤ s.cfgTarget.toNat ∨ s.cfgTarget = 0 ∧ m < 2 ^ 32) :
    execAll (List.replicate m (.seqAdv false)) (s.walkAt 0 false false 0) =
      .next (s.walkAt (m % 2) (decide (m % 2 = 1)) (decide (m ≠ 0 ∧ m = s.cfgTarget.toNat)) m) := by
  induction m with
  | zero => rfl
  | succ m ih =>
    have run := ih (hm.imp Nat.le_of_succ_le (And.imp_right Nat.lt_of_succ_lt))
    have running : ¬(m ≠ 0 ∧ m = s.cfgTarget.toNat) := by
      rintro ⟨pos, last⟩
      obtain le | ⟨zero, _⟩ := hm
      · omega
      · rw [zero] at last
        exact pos last
    have next : IsNextIndex (decide (m % 2 = 1)) (m % 2) ((m + 1) % 2) := isNextIndex_decide.2 (by omega)
    have last := exec_seqAdv_walkAt s next (by omega) m
    rw [decide_eq_false running] at run
    have small : m + 1 < 2 ^ 32 := hm.elim (fun le => lt_of_le_of_lt le s.cfgTarget.isLt) And.right
    simp only [stuck_at_lower ticks stuck, or_true, true_and, if_true, ofNat_eq_iff_of_lt small] at last
    have flip : (!decide (m % 2 = 1)) = decide ((m + 1) % 2 = 1) := not_decide_eq (by omega)
    have done : decide (m + 1 = s.cfgTarget.toNat) = decide (m + 1 ≠ 0 ∧ m + 1 = s.cfgTarget.toNat) :=
      decide_eq_decide.2 (by omega)
    rw [execAll_replicate_snoc run last, flip, done]

/-- Settles O37: `stuck_run`, read register by register. -/
theorem sweepStuckAtLower : Obligations.SweepStuckAtLower := by
  intro s inv stuck
  refine ⟨_, exec_seqRst_eq_walkAt inv.cfgTicks_pos, fun m hm =>
    ⟨_, stuck_run inv.cfgTicks_pos stuck hm, ?_, rfl, ?_, rfl⟩⟩
  · exact (congrArg _ (stuck_at_lower inv.cfgTicks_pos stuck m)).trans (store_toInt _)
  · have small : m < 2 ^ 32 := hm.elim (fun le => lt_of_le_of_lt le s.cfgTarget.isLt) And.right
    exact BitVec.toNat_ofNat .. ▸ Nat.mod_eq_of_lt small

/-! Landing (42_sequencer.md R68 (a), R69): what holds of p_0 .. p_n when the walk first lands at advance n. -/

section Landing

variable {s : State} {n : Nat}

/-- The walk lands within SEQ_T advances. -/
theorem State.LandsAt.le_ticks (h : s.LandsAt n) (ticks : s.cfgTicks ≠ 0) : n ≤ s.cfgTicks.toNat := by
  have near := State.steps_of_at_upper ticks h.lands
  have apart : s.cfgUpper.toInt ≠ s.cfgLower.toInt := fun e => h.bounds_ne (BitVec.eq_of_toInt_eq e)
  have wide : 1 ≤ (s.cfgUpper.toInt - s.cfgLower.toInt).natAbs := by omega
  have := Nat.le_mul_of_pos_right (2 * (n : Int) - s.cfgTicks.toNat).natAbs wide
  omega

/-- Only p_0, of those up to p_n, rounds to the lower bound. -/
theorem State.LandsAt.at_lower_iff (h : s.LandsAt n) (ticks : s.cfgTicks ≠ 0) {k : Nat} (hk : k ≤ n) :
    s.plannedPos k = s.cfgLower.toInt ↔ k = 0 := by
  constructor
  · intro lower
    by_contra nonzero
    obtain rfl | lt := eq_or_lt_of_le hk
    · exact h.bounds_ne (BitVec.eq_of_toInt_eq (h.lands.symm.trans lower))
    · exact (h.first k (by omega) lt).1 lower
  · rintro rfl
    exact State.plannedPos_zero ticks

/-- Only p_n, of those up to it, rounds to the upper bound. -/
theorem State.LandsAt.at_upper_iff (h : s.LandsAt n) (ticks : s.cfgTicks ≠ 0) {k : Nat} (hk : k ≤ n) :
    s.plannedPos k = s.cfgUpper.toInt ↔ k = n := by
  constructor
  · intro upper
    by_contra notLast
    obtain rfl | nonzero := Nat.eq_zero_or_pos k
    · exact h.bounds_ne (BitVec.eq_of_toInt_eq (upper.symm.trans (State.plannedPos_zero ticks)))
    · exact (h.first k nonzero (by omega)).2 upper
  · rintro rfl
    exact h.lands

/-- The positions up to p_n lie between the bounds, in either order of these. -/
theorem State.LandsAt.between (h : s.LandsAt n) (ticks : s.cfgTicks ≠ 0) {k : Nat} (hk : k ≤ n) :
    min s.cfgLower.toInt s.cfgUpper.toInt ≤ s.plannedPos k ∧
    s.plannedPos k ≤ max s.cfgLower.toInt s.cfgUpper.toInt := by
  obtain ⟨upFirst, downFirst⟩ := State.plannedPos_monotone ticks (i := 0) (k := k) (by omega)
  obtain ⟨upLast, downLast⟩ := State.plannedPos_monotone ticks (i := k) (k := n) (by omega)
  rw [State.plannedPos_zero ticks] at upFirst downFirst
  rw [h.lands] at upLast downLast
  omega

/-- SEQ_OUT holds the positions up to p_n as they are. -/
theorem State.LandsAt.toInt_store_plannedPos (h : s.LandsAt n) (ticks : s.cfgTicks ≠ 0) {k : Nat} (hk : k ≤ n) :
    (store 32 (s.plannedPos k)).toInt = s.plannedPos k := by
  obtain ⟨above, below⟩ := h.between ticks hk
  obtain ⟨lowerLo, lowerHi⟩ := toInt_range32 s.cfgLower
  obtain ⟨upperLo, upperHi⟩ := toInt_range32 s.cfgUpper
  exact toInt_store32 (by omega) (by omega)

/-! The cycle of a landing walk: out from p_0 to p_n and back. -/

/-- The index of the walk's position at advance j of a cycle of 2n advances. -/
def cycleIndex (n j : Nat) : Nat := if j ≤ n then j else 2 * n - j

/-- The state at advance j of cycle m. -/
def State.cycleState (s : State) (n m j : Nat) : State :=
  s.walkAt (cycleIndex n j) (decide (n ≤ j ∧ j < 2 * n)) (decide (j = 2 * n ∧ m + 1 = s.targetVisits))
    (if j = 2 * n then m + 1 else m)

theorem cycleIndex_le {n j : Nat} (hj : j ≤ 2 * n) : cycleIndex n j ≤ n := by
  unfold cycleIndex
  split <;> omega

theorem cycleIndex_eq_zero_iff {n j : Nat} (hj : j ≤ 2 * n) : cycleIndex n j = 0 ↔ j = 0 ∨ j = 2 * n := by
  unfold cycleIndex
  split <;> omega

theorem cycleIndex_eq_iff {n j : Nat} (hj : j ≤ 2 * n) : cycleIndex n j = n ↔ j = n := by
  unfold cycleIndex
  split <;> omega

theorem isNextIndex_cycleIndex {n j : Nat} (hj : j < 2 * n) :
    IsNextIndex (decide (n ≤ j)) (cycleIndex n j) (cycleIndex n (j + 1)) := by
  rw [isNextIndex_decide, cycleIndex, cycleIndex]
  split_ifs <;> omega

theorem State.one_le_targetVisits (s : State) : 1 ≤ s.targetVisits := by
  unfold State.targetVisits
  split
  · omega
  · rename_i nonzero
    exact toNat_pos nonzero

/-- Up to its target the count meets SEQ_N once, the wrap to 0 included. -/
theorem State.ofNat_visits_eq_target_iff {v : Nat} (pos : 0 < v) (le : v ≤ s.targetVisits) :
    BitVec.ofNat 32 v = s.cfgTarget ↔ v = s.targetVisits := by
  by_cases zero : s.cfgTarget = 0
  · rw [State.targetVisits, if_pos zero] at le ⊢
    rw [zero]
    obtain rfl | lt := eq_or_lt_of_le le
    · exact iff_of_true rfl rfl
    · exact (ofNat_eq_iff_of_lt lt).trans ⟨fun h => absurd h pos.ne', fun h => absurd h lt.ne⟩
  · rw [State.targetVisits, if_neg zero] at le ⊢
    exact ofNat_eq_iff_of_lt (lt_of_le_of_lt le s.cfgTarget.isLt)

/-- One advance inside a cycle: a flip at p_n and at p_0, a visit at p_0. -/
theorem State.LandsAt.exec_seqAdv_cycleState (h : s.LandsAt n) (ticks : s.cfgTicks ≠ 0) {m j : Nat}
    (hm : m < s.targetVisits) (hj : j < 2 * n) :
    exec (.seqAdv false) (s.cycleState n m j) = .next (s.cycleState n m (j + 1)) := by
  have le := cycleIndex_le (show j + 1 ≤ 2 * n from hj)
  have short := h.le_ticks ticks
  have top := s.cfgTicks.isLt
  have next := exec_seqAdv_walkAt s (isNextIndex_cycleIndex hj) (by omega) m
  simp only [h.at_lower_iff ticks le, h.at_upper_iff ticks le, State.ofNat_visits_eq_target_iff (Nat.succ_pos m) hm,
    cycleIndex_eq_zero_iff (show j + 1 ≤ 2 * n from hj), cycleIndex_eq_iff (show j + 1 ≤ 2 * n from hj)] at next
  have flip : (if j + 1 = n ∨ j + 1 = 0 ∨ j + 1 = 2 * n then !decide (n ≤ j) else decide (n ≤ j)) =
      decide (n ≤ j + 1 ∧ j + 1 < 2 * n) := by
    split
    · exact not_decide_eq (by omega)
    · exact decide_eq_decide.2 (by omega)
  have visit : j + 1 = 0 ∨ j + 1 = 2 * n ↔ j + 1 = 2 * n := by omega
  rw [flip] at next
  simp only [visit] at next
  have now : s.cycleState n m j = s.walkAt (cycleIndex n j) (decide (n ≤ j)) false m := by
    simp [State.cycleState, hj, hj.ne]
  rw [now, next, State.cycleState]

theorem cycleIndex_ends (n : Nat) : cycleIndex n 0 = 0 ∧ cycleIndex n (2 * n) = 0 :=
  ⟨(cycleIndex_eq_zero_iff (by omega)).2 (.inl rfl), (cycleIndex_eq_zero_iff le_rfl).2 (.inr rfl)⟩

theorem State.cycleState_start (hn : 1 ≤ n) (m : Nat) : s.cycleState n m 0 = s.walkAt 0 false false m := by
  have out : ¬n ≤ 0 := by omega
  have ends : (0 : Nat) ≠ 2 * n := by omega
  simp [State.cycleState, cycleIndex_ends, out, ends]

/-- The end of a cycle that is not the last is the start of the next. -/
theorem State.cycleState_end (hn : 1 ≤ n) {m : Nat} (hm : m + 1 < s.targetVisits) :
    s.cycleState n m (2 * n) = s.cycleState n (m + 1) 0 := by
  rw [State.cycleState_start hn]
  simp [State.cycleState, cycleIndex_ends, hm.ne]

/-- From the start of a cycle on, j advances reach its advance j. -/
theorem State.LandsAt.run_within_cycle (h : s.LandsAt n) (ticks : s.cfgTicks ≠ 0) {m j k : Nat} {t : State}
    (hm : m < s.targetVisits) (start : execAll (List.replicate k (.seqAdv false)) t = .next (s.cycleState n m 0))
    (hj : j ≤ 2 * n) : execAll (List.replicate (k + j) (.seqAdv false)) t = .next (s.cycleState n m j) := by
  induction j with
  | zero => exact start
  | succ j ih => exact execAll_replicate_snoc (ih (by omega)) (h.exec_seqAdv_cycleState ticks hm hj)

/-- m cycles reach the start of the next, DONE not yet being set. -/
theorem State.LandsAt.run_cycles (h : s.LandsAt n) (ticks : s.cfgTicks ≠ 0) {m : Nat} (hm : m < s.targetVisits) :
    execAll (List.replicate (m * (2 * n)) (.seqAdv false)) (s.walkAt 0 false false 0) = .next (s.cycleState n m 0) := by
  induction m with
  | zero => rw [Nat.zero_mul, State.cycleState_start h.pos]; rfl
  | succ m ih =>
    rw [Nat.succ_mul, ← State.cycleState_end h.pos hm]
    exact h.run_within_cycle ticks (by omega) (ih (by omega)) le_rfl

theorem cycle_done_iff {n m j v : Nat} (hn : 1 ≤ n) (hm : m < v) (hj : j ≤ 2 * n) :
    j = 2 * n ∧ m + 1 = v ↔ m * (2 * n) + j = 2 * n * v := by
  constructor
  · rintro ⟨rfl, rfl⟩
    ring
  · intro e
    have le : 2 * n * (m + 1) ≤ 2 * n * v := Nat.mul_le_mul_left _ hm
    have ends : j = 2 * n := by linarith
    refine ⟨ends, Nat.eq_of_mul_eq_mul_left (show 0 < 2 * n by omega) ?_⟩
    linarith

/-- The states above are as R68 (a) says. -/
theorem State.LandsAt.cyclePoint (h : s.LandsAt n) (ticks : s.cfgTicks ≠ 0) {m j : Nat} (hm : m < s.targetVisits)
    (hj : j ≤ 2 * n) : s.CyclePoint (s.cycleState n m j) (2 * n) m j := by
  have le := cycleIndex_le hj
  have out : (s.cycleState n m j).seqOut.toInt = s.plannedPos (cycleIndex n j) := h.toInt_store_plannedPos ticks le
  obtain ⟨above, below⟩ := h.between ticks le
  constructor
  case position =>
    rw [out, ← apply_ite s.plannedPos]
    congr 1
    unfold cycleIndex
    split_ifs <;> omega
  case above => rwa [out]
  case below => rwa [out]
  case atUpper =>
    intro middle
    apply BitVec.eq_of_toInt_eq
    rw [out, h.at_upper_iff ticks le, cycleIndex_eq_iff hj]
    omega
  case atLower =>
    intro ends
    apply BitVec.eq_of_toInt_eq
    rwa [out, h.at_lower_iff ticks le, cycleIndex_eq_zero_iff hj]
  case valid => rfl
  case dir => exact decide_eq_decide.2 (by omega)
  case cycles => rfl
  case done => exact decide_eq_decide.2 (cycle_done_iff h.pos hm hj)

/-- Every advance of a landing walk up to the end of its last cycle. -/
theorem State.LandsAt.run_cyclePoint (h : s.LandsAt n) (ticks : s.cfgTicks ≠ 0) {m j : Nat} (hm : m < s.targetVisits)
    (hj : j ≤ 2 * n) :
    ∃ t, execAll (List.replicate (m * (2 * n) + j) (.seqAdv false)) (s.walkAt 0 false false 0) = .next t ∧
      s.CyclePoint t (2 * n) m j :=
  ⟨_, h.run_within_cycle ticks hm (h.run_cycles ticks hm) hj, h.cyclePoint ticks hm hj⟩

end Landing

/-- Settles O53: `State.LandsAt.run_cyclePoint` from the state SEQ.RST leaves. -/
theorem sweepPeriodicOnceLanding : Obligations.SweepPeriodicOnceLanding := fun _ _ inv lands =>
  ⟨_, exec_seqRst_eq_walkAt inv.cfgTicks_pos, fun _ _ => lands.run_cyclePoint inv.cfgTicks_pos⟩

/-! R68's sufficient condition (42_sequencer.md R68, 70_reset_and_hazards.md R104). -/

theorem State.SweepPrecondition.landsAtHalfCycle {s : State} (h : s.SweepPrecondition) : s.LandsAtHalfCycle := by
  obtain ⟨_, even, wide, _⟩ := h
  exact ⟨even, by omega⟩

/-- At SEQ_T / 2 the position is SEQ_U exactly. Before, it is at least one step off SEQ_L and, SEQ_T being even, one
step off SEQ_U, and a step is more than a half. -/
theorem State.LandsAtHalfCycle.landsAt {s : State} (h : s.LandsAtHalfCycle) (ticks : s.cfgTicks ≠ 0) :
    s.LandsAt (s.cfgTicks.toNat / 2) := by
  obtain ⟨even, wide⟩ := h
  have pos := toNat_pos ticks
  have half : 2 * ((s.cfgTicks.toNat / 2 : Nat) : Int) = s.cfgTicks.toNat := by omega
  constructor
  case bounds_ne =>
    intro same
    rw [same, sub_self] at wide
    omega
  case pos => omega
  case lands =>
    have atHalf : s.plannedAcc (s.cfgTicks.toNat / 2 : Nat) = s.cfgUpper.toInt * s.cfgTicks.toNat := by
      rw [State.plannedAcc, ← half]
      ring
    rw [State.plannedPos, atHalf, roundTie_mul _ _ _ (Int.natCast_pos.2 (toNat_pos ticks))]
  case first =>
    intro k hk before
    constructor
    · intro lower
      have near := State.steps_of_at_lower ticks lower
      have := Nat.le_mul_of_pos_left (s.cfgUpper.toInt - s.cfgLower.toInt).natAbs (show 0 < (k : Int).natAbs by omega)
      omega
    · intro upper
      have near := State.steps_of_at_upper ticks upper
      have := Nat.mul_le_mul_right (s.cfgUpper.toInt - s.cfgLower.toInt).natAbs
        (show 2 ≤ (2 * (k : Int) - s.cfgTicks.toNat).natAbs by omega)
      omega

theorem State.LandsAtHalfCycle.two_mul_half {s : State} (h : s.LandsAtHalfCycle) :
    2 * (s.cfgTicks.toNat / 2) = s.cfgTicks.toNat := by
  obtain ⟨even, _⟩ := h
  omega

/-- Every advance of such a walk, whose cycle is SEQ_T advances. -/
theorem State.LandsAtHalfCycle.run_cyclePoint {s : State} (h : s.LandsAtHalfCycle) (ticks : s.cfgTicks ≠ 0) {m j : Nat}
    (hm : m < s.targetVisits) (hj : j ≤ s.cfgTicks.toNat) :
    ∃ t, execAll (List.replicate (m * s.cfgTicks.toNat + j) (.seqAdv false)) (s.walkAt 0 false false 0) = .next t ∧
      s.CyclePoint t s.cfgTicks.toNat m j := by
  have run := (h.landsAt ticks).run_cyclePoint ticks (j := j) hm
  rw [h.two_mul_half] at run
  exact run hj

/-- Settles O36: O53's run with SEQ_T for the period. -/
theorem sweepDoneAfterTargetCycles : Obligations.SweepDoneAfterTargetCycles := fun _ inv half =>
  ⟨_, exec_seqRst_eq_walkAt inv.cfgTicks_pos, fun _ _ => half.run_cyclePoint inv.cfgTicks_pos⟩

theorem State.targetVisits_eq_one_iff (s : State) : s.targetVisits = 1 ↔ s.cfgTarget = 1 := by
  rw [eq_comm, ← State.ofNat_visits_eq_target_iff one_pos s.one_le_targetVisits, eq_comm]
  rfl

/-- Settles O35: the first cycle of O36's run. -/
theorem sweepLandsOnBothBounds : Obligations.SweepLandsOnBothBounds := by
  refine ⟨fun s => State.SweepPrecondition.landsAtHalfCycle, fun s inv half => ?_⟩
  have ticks := inv.cfgTicks_pos
  refine ⟨half.landsAt ticks, _, exec_seqRst_eq_walkAt ticks, fun k hk => ?_⟩
  obtain ⟨t, run, point⟩ := half.run_cyclePoint ticks s.one_le_targetVisits hk
  rw [Nat.zero_mul, Nat.zero_add] at run
  refine ⟨t, run, point.position, point.above, point.below, point.valid, point.dir, point.atUpper,
    fun ends => point.atLower (.inr ends), ?_, ?_⟩
  · rw [point.cycles]
    split <;> rfl
  · have last := cycle_done_iff (half.landsAt ticks).pos s.one_le_targetVisits (half.two_mul_half.symm ▸ hk)
    rw [half.two_mul_half, Nat.zero_add, eq_comm (a := 1), s.targetVisits_eq_one_iff] at last
    rw [point.done]
    exact decide_eq_decide.2 last.symm

end Sys2Proof.Machine

/-! Proofs of the statements of 43_display.md: the lights (R70), the display commands (R71 to R74), and the blink phase as
a function of elapsed time (R75). -/

namespace Sys2Proof.Machine

/-! The lights (43_display.md R70). -/

theorem State.shown_iff (s : State) : s.shown = true ↔ s.dspBlink.en = false ∨ s.dspBlink.phase = true := by
  rw [State.shown, Bool.or_eq_true, Bool.not_eq_true']

/-- Settles O39: a light reads `shown`, which DSP_VALUE does not enter, and its own bit. -/
theorem ledShowsItsBit : Obligations.LedShowsItsBit := by
  refine fun s i => ⟨?_, fun v same => ?_⟩
  · simp only [State.led, Bool.and_eq_true, State.shown_iff]
  · exact congrArg (fun bit => if s.shown && bit then s.dspColor else 0) same

/-! DSP.COL (43_display.md R71). -/

theorem exec_dspCol_of_valid {rgb : Word32} (valid : colourTop rgb = 0) (s : State) :
    exec (.dspCol rgb) s = .next { s with dspColor := colourField rgb } := if_neg (not_not_intro valid)

theorem exec_dspCol_of_invalid {rgb : Word32} (invalid : colourTop rgb ≠ 0) (s : State) :
    exec (.dspCol rgb) s = .next s := if_pos invalid

/-- Settles O40: the two equations above. -/
theorem dspColSetsColour : Obligations.DspColSetsColour :=
  ⟨decode_encode (i := .dspCol 0x00FF00) rfl,
    fun s _ => ⟨fun valid => exec_dspCol_of_valid valid s, fun invalid => exec_dspCol_of_invalid invalid s⟩⟩

/-! DSP.BLK (43_display.md R72). -/

theorem Blink.eq_blinkOff {f : Blink} (off : f.en = false) (phase : f.phase = true) : f = blinkOff := by
  rw [blinkOff, ← off, ← phase]

/-- Switching on a blink that is off starts it in the "on" phase. -/
theorem Blink.on_of_off {f : Blink} (off : f.en = false) : f.on = { en := true, phase := true } := by
  rw [Blink.on, off, if_neg Bool.false_ne_true]

theorem Blink.on_of_on {f : Blink} (on : f.en = true) : f.on = f := by
  rw [Blink.on, if_pos on, ← on]

theorem exec_dspBlk_off (mhz : Nat) (s : State) :
    exec (.dspBlk false mhz) s = .next { s with dspBlink := blinkOff, dspAcc := 0 } := rfl

theorem exec_dspBlk_on_of_off {s : State} {mhz : Nat} (nonzero : mhz ≠ 0) (off : s.dspBlink.en = false) :
    exec (.dspBlk true mhz) s = .next { s with
      dspBlink := { en := true, phase := true }, dspAcc := 0, dspFreq := BitVec.ofNat 32 mhz } := by
  have run : exec (.dspBlk true mhz) s = _ := if_neg nonzero
  rw [run, Blink.on_of_off off, off, if_neg Bool.false_ne_true, store, BitVec.ofInt_natCast]

/-- While blink is on, the phase and the timer go on. -/
theorem exec_dspBlk_on_of_on {s : State} {mhz : Nat} (nonzero : mhz ≠ 0) (on : s.dspBlink.en = true) :
    exec (.dspBlk true mhz) s = .next { s with dspFreq := BitVec.ofNat 32 mhz } := by
  have run : exec (.dspBlk true mhz) s = _ := if_neg nonzero
  rw [run, Blink.on_of_on on, if_pos on, store, BitVec.ofInt_natCast]

/-- Off again writes what the invariant says the blink registers hold. -/
theorem exec_dspBlk_off_of_off {s : State} (inv : s.Inv) (off : s.dspBlink.en = false) (mhz : Nat) :
    exec (.dspBlk false mhz) s = .next s := by
  rw [exec_dspBlk_off, ← Blink.eq_blinkOff off (inv.blinkOff_phase off), ← inv.blinkOff_acc off]

/-- Settles O41: one equation above per clause; the rejection is by computation. -/
theorem dspBlkSwitchesBlink : Obligations.DspBlkSwitchesBlink :=
  ⟨decode_encode (i := .dspBlk true 2000) rfl,
    fun s mhz => ⟨exec_dspBlk_off mhz s, rfl, exec_dspBlk_on_of_off, exec_dspBlk_on_of_on,
      fun inv off => exec_dspBlk_off_of_off inv off mhz⟩⟩

/-! DSP.RND (43_display.md R73). -/

theorem exec_dspRnd_of_inRange {v : Int} (lo : 0 ≤ v) (hi : v ≤ 255) (s : State) :
    exec (.dspRnd v) s = .next { s with dspValue := store 8 v } :=
  if_neg (not_or_intro (not_lt.2 lo) (not_lt.2 hi))

theorem exec_dspRnd_of_outOfRange {v : Int} (outside : v < 0 ∨ 255 < v) (s : State) :
    exec (.dspRnd v) s = .next s := if_pos outside

/-- Settles O42: [0, 255] is what eight bits hold, so the latch keeps the value. -/
theorem dspRndLatchesValue : Obligations.DspRndLatchesValue := by
  refine ⟨decode_encode (i := .dspRnd 0xA5) rfl, fun s v => ⟨fun lo hi => ?_, fun outside => ?_⟩⟩
  · exact ⟨exec_dspRnd_of_inRange lo hi s, (toNat_store_eq_emod 8 v).trans (Int.emod_eq_of_lt lo (by omega))⟩
  · exact exec_dspRnd_of_outOfRange outside s

/-! DSP.ADV (43_display.md R74). -/

theorem Blink.toggled_eq (f : Blink) (n : Nat) :
    f.toggled n = { en := f.en, phase := if n % 2 = 1 then !f.phase else f.phase } := by
  rw [Blink.toggled, beq_eq_decide, xor_decide]

theorem Blink.toggled_zero (f : Blink) : f.toggled 0 = f := by
  rw [Blink.toggled_eq, if_neg (by decide)]

/-- The blink timer dt ms later, before whole toggle intervals are taken from it. -/
def State.timerAfter (s : State) (dt : Nat) : Nat := s.dspAcc.toNat + dt * s.dspFreq.toNat

/-- What remains of the timer fits DSP_ACC. -/
theorem toNat_store_timer (t : Nat) : (store 20 ((t % accPerToggle : Nat) : Int)).toNat = t % accPerToggle := by
  have rest : t % accPerToggle < 1000000 := Nat.mod_lt _ (by decide)
  exact toNat_store (by omega)

theorem exec_dspAdv_of_off {s : State} (off : s.dspBlink.en = false) (dt : Nat) : exec (.dspAdv dt) s = .next s := by
  obtain ⟨_, run⟩ | ⟨on, _⟩ := execDspAdv_cases dt s
  · exact run
  · exact absurd (on.symm.trans off) nofun

theorem exec_dspAdv_of_on {s : State} (on : s.dspBlink.en = true) (dt : Nat) :
    exec (.dspAdv dt) s = .next { s with
      dspAcc := store 20 ((s.timerAfter dt % accPerToggle : Nat) : Int)
      dspBlink := s.dspBlink.toggled (s.timerAfter dt / accPerToggle) } := by
  obtain ⟨off, _⟩ | ⟨_, run⟩ := execDspAdv_cases dt s
  · exact absurd (on.symm.trans off) nofun
  · exact run

/-- With no time passed the timer is short of a toggle interval, as it was. -/
theorem exec_dspAdv_zero {s : State} (inv : s.Inv) : exec (.dspAdv 0) s = .next s := by
  cases en : s.dspBlink.en with
  | false => exact exec_dspAdv_of_off en 0
  | true =>
    have timer : s.timerAfter 0 = s.dspAcc.toNat := by rw [State.timerAfter, Nat.zero_mul, Nat.add_zero]
    have short : s.dspAcc.toNat < accPerToggle := Nat.lt_succ_of_le inv.dspAcc_le
    have kept : store 20 (s.dspAcc.toNat : Int) = s.dspAcc := by
      rw [store, BitVec.ofInt_natCast, BitVec.ofNat_toNat, BitVec.setWidth_eq]
    rw [exec_dspAdv_of_on en, timer, Nat.mod_eq_of_lt short, Nat.div_eq_of_lt short, Blink.toggled_zero, kept]

/-- Settles O43: n is the quotient of the timer by a toggle interval, DSP_ACC keeps the remainder. -/
theorem dspAdvAdvancesTimer : Obligations.DspAdvAdvancesTimer := by
  refine ⟨decode_encode (i := .dspAdv 300) rfl, fun s dt => ⟨fun off => ?_, fun on => ?_, exec_dspAdv_zero⟩⟩
  · exact exec_dspAdv_of_off off dt
  · refine ⟨store 20 ((s.timerAfter dt % accPerToggle : Nat) : Int), s.timerAfter dt / accPerToggle, ?_, ?_, ?_⟩
    · rw [toNat_store_timer]
      exact Nat.div_add_mod' _ _
    · rw [toNat_store_timer]
      exact Nat.mod_lt _ (by decide)
    · rw [exec_dspAdv_of_on on, Blink.toggled_eq, on]

/-! The blink phase as a function of elapsed time (43_display.md R75). -/

/-- Two states agree on the registers of the blink overlay. -/
def State.SameBlink (s t : State) : Prop :=
  t.dspBlink = s.dspBlink ∧ t.dspFreq = s.dspFreq ∧ t.dspAcc = s.dspAcc

/-- Only DSP.BLK and DSP.ADV write the registers of the blink overlay. -/
theorem exec_sameBlink {i : Instr} {s t : State} (h : exec i s = .next t) (notBlk : ∀ en mhz, i ≠ .dspBlk en mhz)
    (notAdv : ∀ dt, i ≠ .dspAdv dt) : s.SameBlink t := by
  have other (foreign : unitOf i ≠ some .dsp) : s.SameBlink t := by
    obtain ⟨_, _, _, dsp, _⟩ := respectsUnits_of_exec h
    obtain ⟨_, _, same⟩ := dsp foreign
    exact same
  cases i with
  | dspCol rgb =>
    by_cases valid : colourTop rgb = 0
    · obtain rfl := Host.Outcome.next.inj ((exec_dspCol_of_valid valid s).symm.trans h)
      exact ⟨rfl, rfl, rfl⟩
    · obtain rfl := Host.Outcome.next.inj ((exec_dspCol_of_invalid valid s).symm.trans h)
      exact ⟨rfl, rfl, rfl⟩
  | dspBlk en mhz => exact absurd rfl (notBlk en mhz)
  | dspRnd v =>
    by_cases outside : v < 0 ∨ 255 < v
    · obtain rfl := Host.Outcome.next.inj ((exec_dspRnd_of_outOfRange outside s).symm.trans h)
      exact ⟨rfl, rfl, rfl⟩
    · have run := exec_dspRnd_of_inRange (v := v) (by omega) (by omega) s
      obtain rfl := Host.Outcome.next.inj (run.symm.trans h)
      exact ⟨rfl, rfl, rfl⟩
  | dspAdv dt => exact absurd rfl (notAdv dt)
  | _ => exact other nofun

/-- The blink has run at frequency f for e ms since it was switched on: the toggle intervals of that time and the fraction
of one that is left make e * f units of the timer, and PHASE is "on" after an even number of them. -/
structure State.BlinkingFor (s : State) (f e : Nat) : Prop where
  on : s.dspBlink.en = true
  freq : s.dspFreq.toNat = f
  acc : s.dspAcc.toNat = e * f % accPerToggle
  phase : s.dspBlink.phase = decide (e * f / accPerToggle % 2 = 0)

theorem State.BlinkingFor.of_sameBlink {s t : State} {f e : Nat} (h : s.BlinkingFor f e) (same : s.SameBlink t) :
    t.BlinkingFor f e := by
  obtain ⟨on, freq, acc, phase⟩ := h
  obtain ⟨sameBlink, sameFreq, sameAcc⟩ := same
  constructor <;> simpa only [sameBlink, sameFreq, sameAcc]

/-- Repeating the setting in force changes nothing. -/
theorem State.BlinkingFor.exec_dspBlk {s : State} {f e : Nat} (h : s.BlinkingFor f e) (pos : 0 < f) :
    exec (.dspBlk true f) s = .next s := by
  rw [exec_dspBlk_on_of_on pos.ne' h.on, ← h.freq, BitVec.ofNat_toNat, BitVec.setWidth_eq]

/-- The remainder carries over, so the whole intervals of two times after each other are those of their sum. -/
theorem State.BlinkingFor.of_dspAdv {s t : State} {f e dt : Nat} (h : s.BlinkingFor f e)
    (run : exec (.dspAdv dt) s = .next t) : t.BlinkingFor f (e + dt) := by
  obtain ⟨on, freq, acc, phase⟩ := h
  obtain rfl := Host.Outcome.next.inj ((exec_dspAdv_of_on on dt).symm.trans run)
  have timer : s.timerAfter dt = e * f % accPerToggle + dt * f := by rw [State.timerAfter, acc, freq]
  have total : (e + dt) * f = accPerToggle * (e * f / accPerToggle) + s.timerAfter dt := by
    rw [timer, Nat.add_mul, ← Nat.add_assoc, Nat.div_add_mod]
  have intervals : (e + dt) * f / accPerToggle = e * f / accPerToggle + s.timerAfter dt / accPerToggle := by
    rw [total, Nat.mul_add_div (by decide)]
  constructor
  case on => exact on
  case freq => exact freq
  case acc => rw [toNat_store_timer, total, Nat.mul_add_mod]
  case phase =>
    rw [Blink.toggled_eq, phase, intervals, ← decide_not]
    split
    · exact decide_eq_decide.2 (by omega)
    · exact decide_eq_decide.2 (by omega)

/-- Every command that leaves the blink on at f adds its own time. -/
theorem State.BlinkingFor.of_exec {i : Instr} {s t : State} {f e : Nat} (h : s.BlinkingFor f e) (pos : 0 < f)
    (staysOn : ∀ en mhz, i = .dspBlk en mhz → en = true ∧ mhz = f) (run : exec i s = .next t) :
    t.BlinkingFor f (e + dtOf i) := by
  cases i with
  | dspBlk en mhz =>
    obtain ⟨rfl, rfl⟩ := staysOn en mhz rfl
    obtain rfl := Host.Outcome.next.inj ((h.exec_dspBlk pos).symm.trans run)
    exact h
  | dspAdv dt => exact h.of_dspAdv run
  | _ => exact h.of_sameBlink (exec_sameBlink run nofun nofun)

theorem elapsed_cons (i : Instr) (is : List Instr) : elapsed (i :: is) = dtOf i + elapsed is := by
  rw [elapsed, elapsed, List.map_cons, List.sum_cons]

theorem State.BlinkingFor.exists_execAll {is : List Instr} {s : State} {f e : Nat} (h : s.BlinkingFor f e) (pos : 0 < f)
    (staysOn : ∀ i ∈ is, ∀ en mhz, i = .dspBlk en mhz → en = true ∧ mhz = f) :
    ∃ t, execAll is s = .next t ∧ t.BlinkingFor f (e + elapsed is) := by
  induction is generalizing s e with
  | nil => exact ⟨s, rfl, h⟩
  | cons i is ih =>
    obtain ⟨u, run, _⟩ := exec_next i s
    obtain ⟨headOn, tailOn⟩ := List.forall_mem_cons.1 staysOn
    obtain ⟨t, rest, blinking⟩ := ih (h.of_exec pos headOn run) tailOn
    refine ⟨t, ?_, ?_⟩
    · rw [execAll, run]
      exact rest
    · rwa [elapsed_cons, ← Nat.add_assoc]

/-- Settles O44: switching on starts a blink of 0 ms, and the commands since bring it to E. -/
theorem blinkPhaseFollowsElapsedTime : Obligations.BlinkPhaseFollowsElapsedTime := by
  intro s f is off pos fits staysOn
  have start := exec_dspBlk_on_of_off pos.ne' off
  have blinking : State.BlinkingFor { s with
      dspBlink := { en := true, phase := true }, dspAcc := 0, dspFreq := BitVec.ofNat 32 f } f 0 :=
    ⟨rfl, (BitVec.toNat_ofNat f 32).trans (Nat.mod_eq_of_lt fits), by rw [Nat.zero_mul]; rfl, by rw [Nat.zero_mul]; rfl⟩
  obtain ⟨t, run, on, freq, _, phase⟩ := blinking.exists_execAll pos staysOn
  rw [Nat.zero_add] at phase
  exact ⟨_, t, start, run, on, freq, by rw [phase, decide_eq_true_eq]; rfl⟩

end Sys2Proof.Machine

/-! Proof of the statement of 44_control.md: NOP (R76). -/

namespace Sys2Proof

/-- The two round trips together: a word decodes to a command iff it is the word of that command. -/
theorem decode_eq_ok_iff {cw : CommandWord} {i : Instr} :
    decode cw = .ok i ↔ i.wellFormed = true ∧ encode i = cw := by
  refine ⟨encode_of_decode, ?_⟩
  rintro ⟨wf, rfl⟩
  exact decode_encode wf

theorem encode_nop : encode .nop = 0 := by decide

/-- NOP is the all-zero word and no other (44_control.md R76), whatever the word's opcode. -/
theorem decode_eq_nop_iff {cw : CommandWord} : decode cw = .ok .nop ↔ cw = 0 := by
  rw [decode_eq_ok_iff, encode_nop, eq_comm (a := 0)]
  exact and_iff_right rfl

/-- No other command shares NOP's opcode. -/
theorem eq_nop_of_opc {i : Instr} (h : i.opc = 0) : i = .nop := by
  cases i with
  | nop => rfl
  | _ => simp [Instr.opc] at h

/-- A legal word of opcode 0 is NOP's: its opcode is that of the command it decodes to. -/
theorem eq_nop_of_decode {cw : CommandWord} {i : Instr} (opc : opcField cw = 0) (h : decode cw = .ok i) : i = .nop := by
  obtain ⟨_, rfl⟩ := encode_of_decode h
  exact eq_nop_of_opc ((opcField_encode i).symm.trans opc)

end Sys2Proof

namespace Sys2Proof.Machine

theorem exec_nop (s : State) : exec .nop s = .next s := rfl

/-- Settles O26: of opcode 0 only NOP decodes, and only from the all-zero word. -/
theorem nopChangesNothing : Obligations.NopChangesNothing := by
  refine ⟨exec_nop, fun _ _ => decode_eq_nop_iff, ?_⟩
  rintro cw opc nonzero ⟨i, decoded⟩
  obtain rfl := eq_nop_of_decode opc decoded
  exact nonzero (decode_eq_nop_iff.1 decoded)

end Sys2Proof.Machine

/-! Proofs of the statements of 60_exceptions.md: the illegal outcome (R81), the idle step (R93), and the total step with
its one refusal (R94). -/

namespace Sys2Proof.Machine

/-! A step without a command (60_exceptions.md R93). -/

theorem action_of_idle {x : PortSample} (rst : x.rst = false) (idle : x.cmdValid = false) : x.action = .idle := by
  simp only [PortSample.action, rst, idle, Bool.false_eq_true, if_false]

theorem fetch_of_no_input {s : State} (input : s.input = []) : s.fetch = (.idle, s) := by
  simp only [State.fetch, input]

theorem step_of_no_input {s : State} (hp : Admissible s.params) (input : s.input = []) : step s = .next s := by
  simp only [step, if_pos hp, fetch_of_no_input input]

theorem step_of_idle {s : State} {x : PortSample} {rest : List PortSample} (hp : Admissible s.params)
    (input : s.input = x :: rest) (rst : x.rst = false) (idle : x.cmdValid = false) :
    step s = .next { s with input := rest } := by
  simp only [step, if_pos hp, fetch_of_input input, action_of_idle rst idle]

/-- Settles O13: with no sample left or an idle one next, all a step does is take the sample. -/
theorem idleStepHoldsState : Obligations.IdleStepHoldsState :=
  fun _ hp => ⟨step_of_no_input hp, fun _ _ => step_of_idle hp⟩

/-! The illegal outcome (60_exceptions.md R81). -/

theorem not_exists_ok_of_error {cw : CommandWord} {e : IllegalWord} (h : decode cw = .error e) :
    ¬ ∃ i, decode cw = .ok i := by
  rintro ⟨i, decoded⟩
  exact nomatch decoded.symm.trans h

/-- Settles O11: a word that the decoder rejects is no command's, so the step is `State.takeIllegal`; and a command keeps
STATUS with the other fields that none writes. -/
theorem illegalWordSetsIll : Obligations.IllegalWordSetsIll := by
  constructor
  · intro s x rest e hp input rst valid rejected
    exact step_of_illegal hp input rst valid (not_exists_ok_of_error rejected)
  · intro i s
    obtain ⟨t, run, status, _⟩ := exec_next i s
    exact ⟨t, run, status⟩

/-! The total step (60_exceptions.md R94). -/

/-- No word faults, gets stuck or hangs: every input that the ports can show has a next state. -/
theorem step_next {s : State} (hp : Admissible s.params) : ∃ t, step s = .next t := by
  cases input : s.input with
  | nil => exact ⟨s, step_of_no_input hp input⟩
  | cons x rest =>
    obtain ⟨rst, _⟩ | ⟨rst, valid, _⟩ | ⟨rst, idle, _⟩ := action_cases x
    · exact ⟨_, step_of_rst hp input rst⟩
    · cases decoded : decode x.cmd with
      | ok i =>
        obtain ⟨t, run, _⟩ := exec_next i { s with input := rest }
        exact ⟨t, (stepRunsDecodedInstruction s x rest i hp input rst valid decoded).trans run⟩
      | error e => exact ⟨_, step_of_illegal hp input rst valid (not_exists_ok_of_error decoded)⟩
    · exact ⟨_, step_of_idle hp input rst idle⟩

/-- Only a command can emit, and it emits at most once (10_state.md R34): RST keeps the stream. -/
theorem step_events {s t : State} (h : step s = .next t) :
    t.events = s.events ∨ ∃ v, t.events = s.events ++ [.pwmWrite v] := by
  obtain ⟨hp, ⟨_, rfl⟩ | ⟨x, rest, _, outcome⟩⟩ := step_cases h
  · exact .inl rfl
  obtain ⟨_, rfl⟩ | ⟨_, _, rfl⟩ | ⟨_, _, ⟨i, _, run⟩ | ⟨_, _, rfl⟩⟩ := outcome
  · exact .inl (State.applyReset_events _)
  · exact .inl rfl
  · obtain ⟨_, kept⟩ | ⟨_, _, emitted⟩ := exec_pulse (s := { s with input := rest }) hp run
    · exact .inl kept
    · exact .inr ⟨t.actCur, emitted⟩
  · exact .inl (State.takeIllegal_events _)

theorem step_of_not_admissible {s : State} (h : ¬ Admissible s.params) :
    step s = .refused .inadmissibleParameters := if_neg h

/-- Settles O14: a step has a next state, whose stream is that of `step_events`, unless the parameters are refused. -/
theorem stepTotalOrRefused : Obligations.StepTotalOrRefused := by
  refine fun s => ⟨fun hp => ?_, step_of_not_admissible⟩
  obtain ⟨t, h⟩ := step_next hp
  exact ⟨t, h, step_events h⟩

end Sys2Proof.Machine

/-! Proofs of the statements of 70_reset_and_hazards.md: the inert block after reset (R96), boot order (R97), the coupled
forms as gated targets (R100, R101), and repeated blink settings (R103). -/

namespace Sys2Proof.Machine

/-! Runs of given commands. -/

theorem execAll_cons {i : Instr} {s t : State} (first : exec i s = .next t) (is : List Instr) :
    execAll (i :: is) s = execAll is t := by
  rw [execAll, first]

/-! The coupled forms (70_reset_and_hazards.md R100, R101). -/

theorem gatedTarget_of_valid {s : State} (valid : s.seqFlags.valid = true) :
    gatedTarget s = [.actTgt s.seqOut.toInt] := if_pos valid

theorem gatedTarget_of_invalid {s : State} (invalid : s.seqFlags.valid = false) : gatedTarget s = [] :=
  if_neg (Bool.eq_false_iff.1 invalid)

/-- A SEQ.ADV that returns a position commands it in the coupled form; one that returns none leaves VALID at 0, and the
two forms agree. -/
theorem seqAdv_coupled_eq_gated (s : State) :
    ∃ t, exec (.seqAdv false) s = .next t ∧ exec (.seqAdv true) s = execAll (gatedTarget t) t := by
  obtain ⟨done, _⟩ | ⟨_, t, uncoupled, coupled, _, _, valid, _⟩ := execSeqAdv_cases true s
  · refine ⟨_, exec_seqAdv_of_done false done, ?_⟩
    rw [gatedTarget_of_invalid rfl]
    exact exec_seqAdv_of_done true done
  · refine ⟨t, uncoupled, ?_⟩
    rw [gatedTarget_of_valid valid, execAll_cons (exec_actTgt _ t)]
    exact coupled

/-- Settles O34: SEQ.ADV by whether it returns a position; SEQ.RST always does, so there the target needs no gate. -/
theorem coupledFormsAreGatedTargets : Obligations.CoupledFormsAreGatedTargets :=
  fun s => ⟨seqAdv_coupled_eq_gated s, _, rfl, rfl⟩

/-! Commands in any order: adjacent commands that commute may change places. -/

/-- The two commands lead to the same state in either order. -/
def CommandsCommute (i j : Instr) : Prop := ∀ s : State, ∃ t, execAll [i, j] s = .next t ∧ execAll [j, i] s = .next t

theorem CommandsCommute.symm {i j : Instr} (h : CommandsCommute i j) : CommandsCommute j i := fun s =>
  let ⟨t, ij, ji⟩ := h s
  ⟨t, ji, ij⟩

/-- Two commands that are one write each in every state commute if their writes do. -/
theorem commandsCommute_of_writes {i j : Instr} {write write' : State → State} (runI : ∀ s, exec i s = .next (write s))
    (runJ : ∀ s, exec j s = .next (write' s)) (comm : ∀ s, write' (write s) = write (write' s)) :
    CommandsCommute i j := fun s =>
  ⟨write' (write s), (execAll_cons (runI s) [j]).trans (execAll_cons (runJ _) []),
    (execAll_cons (runJ s) [i]).trans ((execAll_cons (runI _) []).trans (congrArg _ (comm s).symm))⟩

/-- Commands that commute pairwise may run in any order. -/
theorem execAll_perm {is js : List Instr} (perm : is.Perm js) (comm : is.Pairwise CommandsCommute) (s : State) :
    execAll is s = execAll js s := by
  induction perm generalizing s with
  | nil => rfl
  | cons i _ ih =>
    obtain ⟨t, run, _⟩ := exec_next i s
    rw [execAll_cons run, execAll_cons run]
    exact ih comm.of_cons t
  | swap i j is =>
    obtain ⟨t, ji, ij⟩ := List.rel_of_pairwise_cons comm List.mem_cons_self s
    exact (execAll_append ji is).trans (execAll_append ij is).symm
  | trans first _ ih ih' => exact (ih comm s).trans (ih' (first.pairwise comm CommandsCommute.symm) s)

/-! Step 1 of the boot order: the configuration (70_reset_and_hazards.md R97). -/

theorem exec_cfgLowerOf (l : Int) (s : State) :
    exec (cfgLowerOf l) s = .next { s with cfgLower := BitVec.ofInt 32 l } :=
  let ⟨lower, _⟩ := seqCfgWritesPending.2 s (BitVec.ofInt 32 l)
  lower

theorem exec_cfgUpperOf (u : Int) (s : State) :
    exec (cfgUpperOf u) s = .next { s with cfgUpper := BitVec.ofInt 32 u } :=
  let ⟨_, upper, _⟩ := seqCfgWritesPending.2 s (BitVec.ofInt 32 u)
  upper

theorem exec_cfgTicksOf {t : Nat} (pos : 0 < t) (fits : t < 2 ^ 32) (s : State) :
    exec (cfgTicksOf t) s = .next { s with cfgTicks := BitVec.ofNat 32 t } :=
  let ⟨_, _, ticks, _⟩ := seqCfgWritesPending.2 s (BitVec.ofNat 32 t)
  ticks fun zero => pos.ne' ((ofNat_eq_iff_of_lt fits).1 zero)

theorem exec_cfgTargetOf (n : Nat) (s : State) :
    exec (cfgTargetOf n) s = .next { s with cfgTarget := BitVec.ofNat 32 n } :=
  let ⟨_, _, _, _, target, _⟩ := seqCfgWritesPending.2 s (BitVec.ofNat 32 n)
  target

/-- `s` with a pending configuration. -/
def State.configured (s : State) (l u : Int) (t n : Nat) : State :=
  { s with
    cfgLower := BitVec.ofInt 32 l, cfgUpper := BitVec.ofInt 32 u
    cfgTicks := BitVec.ofNat 32 t, cfgTarget := BitVec.ofNat 32 n }

theorem execAll_seqSetupCommands (l u : Int) {t : Nat} (n : Nat) (pos : 0 < t) (fits : t < 2 ^ 32) (s : State) :
    execAll (seqSetupCommands l u t n) s = .next (s.configured l u t n) := by
  rw [seqSetupCommands, execAll_cons (exec_cfgLowerOf l _), execAll_cons (exec_cfgUpperOf u _),
    execAll_cons (exec_cfgTicksOf pos fits _), execAll_cons (exec_cfgTargetOf n _)]
  rfl

/-- Each writes a register of its own. -/
theorem seqSetupCommands_commute (l u : Int) {t : Nat} (n : Nat) (pos : 0 < t) (fits : t < 2 ^ 32) :
    (seqSetupCommands l u t n).Pairwise CommandsCommute := by
  have lowerUpper := commandsCommute_of_writes (exec_cfgLowerOf l) (exec_cfgUpperOf u) fun _ => rfl
  have lowerTicks := commandsCommute_of_writes (exec_cfgLowerOf l) (exec_cfgTicksOf pos fits) fun _ => rfl
  have lowerTarget := commandsCommute_of_writes (exec_cfgLowerOf l) (exec_cfgTargetOf n) fun _ => rfl
  have upperTicks := commandsCommute_of_writes (exec_cfgUpperOf u) (exec_cfgTicksOf pos fits) fun _ => rfl
  have upperTarget := commandsCommute_of_writes (exec_cfgUpperOf u) (exec_cfgTargetOf n) fun _ => rfl
  have ticksTarget := commandsCommute_of_writes (exec_cfgTicksOf pos fits) (exec_cfgTargetOf n) fun _ => rfl
  simp [seqSetupCommands, *]

/-! Step 3 of the boot order: the display (70_reset_and_hazards.md R97). -/

/-- Display fields that no display command rejects (43_display.md R71 to R73). -/
structure DisplayFields.Accepted (f : DisplayFields) : Prop where
  colour : colourTop f.rgb = 0
  blink : ∀ mhz, f.blink = some mhz → 0 < mhz ∧ mhz < 2 ^ 32
  value_lo : 0 ≤ f.value
  value_hi : f.value ≤ 255

/-- The `dsp.blk` of a node's blink setting. -/
def blinkCommand : Option Nat → Instr
  | some mhz => .dspBlk true mhz
  | none => .dspBlk false 0

theorem displayCommands_eq (f : DisplayFields) :
    displayCommands f = [.dspCol f.rgb, blinkCommand f.blink, .dspRnd f.value] := rfl

/-- What the `dsp.blk` of an accepted blink setting writes (43_display.md R72). -/
def State.withBlink (s : State) : Option Nat → State
  | some mhz =>
    { s with dspBlink := s.dspBlink.on, dspAcc := if s.dspBlink.en then s.dspAcc else 0, dspFreq := store 32 mhz }
  | none => { s with dspBlink := blinkOff, dspAcc := 0 }

theorem exec_blinkCommand {blink : Option Nat} (accepted : ∀ mhz, blink = some mhz → mhz ≠ 0) (s : State) :
    exec (blinkCommand blink) s = .next (s.withBlink blink) := by
  cases blink with
  | none => exact exec_dspBlk_off 0 s
  | some mhz => exact if_neg (accepted mhz rfl)

/-- Set from "off", a blink starts a fresh interval in the "on" phase, and a node without one leaves DSP_FREQ. -/
theorem State.withBlink_of_off {s : State} (off : s.dspBlink.en = false) (blink : Option Nat) :
    s.withBlink blink = { s with
      dspBlink := { en := blink.isSome, phase := true }, dspAcc := 0
      dspFreq := BitVec.ofNat 32 (blink.getD s.dspFreq.toNat) } := by
  cases blink with
  | none => simp [State.withBlink, blinkOff]
  | some mhz => simp [State.withBlink, Blink.on_of_off off, off, store]

section Display

variable {f : DisplayFields} (ok : f.Accepted)
include ok

theorem DisplayFields.Accepted.exec_dspCol (s : State) :
    exec (.dspCol f.rgb) s = .next { s with dspColor := colourField f.rgb } := exec_dspCol_of_valid ok.colour s

theorem DisplayFields.Accepted.exec_blink (s : State) : exec (blinkCommand f.blink) s = .next (s.withBlink f.blink) :=
  exec_blinkCommand (fun mhz setting => (ok.blink mhz setting).1.ne') s

theorem DisplayFields.Accepted.exec_dspRnd (s : State) :
    exec (.dspRnd f.value) s = .next { s with dspValue := store 8 f.value } :=
  exec_dspRnd_of_inRange ok.value_lo ok.value_hi s

/-- DSP_COLOR, the blink registers and DSP_VALUE have one writer each among the three. -/
theorem DisplayFields.Accepted.commute : (displayCommands f).Pairwise CommandsCommute := by
  have colourBlink := commandsCommute_of_writes ok.exec_dspCol ok.exec_blink fun s => by cases f.blink <;> rfl
  have colourValue := commandsCommute_of_writes ok.exec_dspCol ok.exec_dspRnd fun _ => rfl
  have blinkValue := commandsCommute_of_writes ok.exec_blink ok.exec_dspRnd fun s => by cases f.blink <;> rfl
  simp [displayCommands_eq, *]

theorem DisplayFields.Accepted.execAll_displayCommands {s : State} (off : s.dspBlink.en = false) :
    execAll (displayCommands f) s = .next { s with
      dspColor := colourField f.rgb
      dspBlink := { en := f.blink.isSome, phase := true }, dspAcc := 0
      dspFreq := BitVec.ofNat 32 (f.blink.getD s.dspFreq.toNat)
      dspValue := store 8 f.value } := by
  rw [displayCommands_eq, execAll_cons (ok.exec_dspCol _), execAll_cons (ok.exec_blink _), State.withBlink_of_off,
    execAll_cons (ok.exec_dspRnd _)]
  · rfl
  · exact off

/-- The frequency in force, the reset value if the node does not blink, fits DSP_FREQ. -/
theorem DisplayFields.Accepted.toNat_freq : (BitVec.ofNat 32 (f.blink.getD 1000)).toNat = f.blink.getD 1000 := by
  refine zext32_ofNat ((inUnsigned32_iff _).2 ?_)
  cases setting : f.blink with
  | none => decide
  | some mhz => exact (ok.blink mhz setting).2

theorem DisplayFields.Accepted.toNat_value : ((store 8 f.value).toNat : Int) = f.value :=
  (toNat_store_eq_emod 8 _).trans (Int.emod_eq_of_lt ok.value_lo (by have := ok.value_hi; omega))

end Display

/-! Boot order (70_reset_and_hazards.md R97). -/

/-- Settles O52: each step runs as in the listed order, by `execAll_perm`; the booted state is then what the three steps
write, the operands being in their registers' ranges. -/
theorem bootOrder : Obligations.BootOrder := by
  intro p l u t n f step1 step3 lFits uFits pos tFits nFits colour blink valueLo valueHi perm1 perm3
  have ok : f.Accepted := ⟨colour, blink, valueLo, valueHi⟩
  have lower : (BitVec.ofInt 32 l).toInt = l := sext32_ofInt lFits
  have upper : (BitVec.ofInt 32 u).toInt = u := sext32_ofInt uFits
  have ticks : (BitVec.ofNat 32 t).toNat = t := zext32_ofNat ((inUnsigned32_iff t).2 tFits)
  have target : (BitVec.ofNat 32 n).toNat = n := zext32_ofNat ((inUnsigned32_iff n).2 nFits)
  have configure : execAll step1 (State.resetWith p) = .next ((State.resetWith p).configured l u t n) := by
    rw [execAll_perm perm1 ((perm1.pairwise_iff CommandsCommute.symm).2 (seqSetupCommands_commute l u n pos tFits))]
    exact execAll_seqSetupCommands l u n pos tFits _
  obtain ⟨acc, start, sweep⟩ := seqRstStartsSweep.2.2 ((State.resetWith p).configured l u t n) true
  have display (s : State) : execAll step3 s = execAll (displayCommands f) s :=
    execAll_perm perm3 ((perm3.pairwise_iff CommandsCommute.symm).2 ok.commute) s
  have boot := (execAll_append configure _).trans ((execAll_cons sweep step3).trans
    ((display _).trans (ok.execAll_displayCommands rfl)))
  rw [List.append_assoc]
  refine ⟨_, boot, lower, upper, ticks, target, lower, upper, ticks, target, start.trans ?_, lower, rfl, rfl, ?_, rfl, rfl,
    rfl, ok.toNat_value, rfl, rfl, ok.toNat_freq, rfl⟩
  · simp only [State.configured, lower, ticks]
  · simp only [State.configured, State.resetWith_params, lower, if_true]

/-! The block after reset (70_reset_and_hazards.md R96). -/

/-- With every light's colour black, no light shows. -/
theorem State.led_of_black {s : State} (black : s.dspColor = 0) (i : Fin ledCount) : s.led i = 0 := by
  rw [State.led, black, ite_self]

/-- Settles O19: ACT_CUR has arrived, DONE is set, the colour is black and the blink is off. -/
theorem resetIsInert : Obligations.ResetIsInert := fun _ =>
  ⟨rfl, exec_actAdv_of_eq rfl, rfl, rfl, fun c => exec_seqAdv_of_done c rfl, State.led_of_black rfl,
    exec_dspAdv_of_off rfl, rfl⟩

/-! Repeated blink settings (70_reset_and_hazards.md R103). -/

/-- Settles O45: `dsp.blk on` keeps phase and timer if blink is on, and `dsp.blk off` makes sure that it is not. -/
theorem repeatedBlinkSettings : Obligations.RepeatedBlinkSettings := by
  refine fun s f nonzero => ⟨exec_dspBlk_on_of_on nonzero, ?_⟩
  rw [execAll_cons (exec_dspBlk_off 0 s), execAll_cons (exec_dspBlk_on_of_off nonzero rfl)]
  rfl

end Sys2Proof.Machine
